-- ==== Sys2Proof/Word.lean ====
section
/-! DEFINITION. The word types of GXH-CORE: a vector is 128 bits (R8, R10), a register of the register
block is 64 bits (R40), a command word is 32 bits (R120), memory is read byte by byte (R84). -/

namespace Sys2Proof

/-- One byte of platform memory, and one lane byte of a vector (R10, R84). -/
abbrev Byte := BitVec 8

/-- A vector value, the source's State: 128 bits, bit 0 least significant (R10). -/
abbrev Vec := BitVec 128

/-- A 64-bit register of the register block; also a bus address, `ADDR_W = 64` (R9, R40). -/
abbrev DWord := BitVec 64

/-- A command word (R120). -/
abbrev CmdWord := BitVec 32

end Sys2Proof
end

