-- ==== Sys2Proof/Syntax.lean ====
section
/-! DEFINITION. The commands of GXH-CORE, one constructor of `Instr` for each row of the opcode map
(R124), over operands that are already decoded by the operand map of R31. -/

namespace Sys2Proof

/-- The ten writable vector registers: the lanes V0..V7, ACC (index 8) and TMP (index 9) (R30). -/
inductive VReg where
  | v0 | v1 | v2 | v3 | v4 | v5 | v6 | v7 | acc | tmp
  deriving DecidableEq, Repr

/-- What a source field may name: a vector register, the hardwired zero ZR, or a salt (R31). -/
inductive Src where
  | reg (r : VReg)
  | zr
  | salt1
  | salt2
  | salt3
  deriving DecidableEq, Repr

/-- The thirteen commands (R124). -/
inductive Instr where
  /-- NOP (R160). -/
  | nop
  /-- ZERO rd (R161). -/
  | zero (rd : VReg)
  /-- LOAD rd (R163). -/
  | load (rd : VReg)
  /-- LOADP rd, #n (R166). -/
  | loadp (rd : VReg) (n : BitVec 4)
  /-- COMP rd, rs1, rs2 (R200). -/
  | comp (rd : VReg) (rs1 rs2 : Src)
  /-- AESR rd, rs1, rs2 (R202). -/
  | aesr (rd : VReg) (rs1 rs2 : Src)
  /-- AESRL rd, rs1, rs2 (R204). -/
  | aesrl (rd : VReg) (rs1 rs2 : Src)
  /-- LINIT (R220). -/
  | linit
  /-- LSTEP (R223). -/
  | lstep
  /-- LRED rd (R226). -/
  | lred (rd : VReg)
  /-- FIN rs1 (R250). -/
  | fin (rs1 : Src)
  /-- EXTR rs1 (R253). -/
  | extr (rs1 : Src)
  /-- HASH (R270). -/
  | hash
  deriving DecidableEq, Repr

/-- The pseudo-instructions of the assembler notation (R131). They have no word of their own. -/
inductive Pseudo where
  /-- `fold rd, rs`: the source's `accumulator = compress(accumulator, block)`. -/
  | fold (rd : VReg) (rs : Src)
  /-- `round rd, rs`: the bare keyless AES round. -/
  | round (rd : VReg) (rs : Src)
  /-- `finx rs`: the finalizer as four commands. -/
  | finx (rs : Src)
  deriving DecidableEq, Repr

end Sys2Proof
end

