-- ==== Sys2Proof/WellFormed.lean ====
section
/-! DEFINITION. Which instructions the encoding admits. The operand types already leave out the
destinations 10..15 and the sources 10 and 11 (R123); what is left is LOADP's count (R122). -/

namespace Sys2Proof

/-- LOADP needs `1 ≤ N ≤ 15` (R122); every other command's operands are legal by their types (R123). -/
def Instr.wellFormed : Instr → Bool
  | .nop => true
  | .zero _ => true
  | .load _ => true
  | .loadp _ n => n != 0#4
  | .comp _ _ _ => true
  | .aesr _ _ _ => true
  | .aesrl _ _ _ => true
  | .linit => true
  | .lstep => true
  | .lred _ => true
  | .fin _ => true
  | .extr _ => true
  | .hash => true

end Sys2Proof
end

