-- ==== Sys2Proof/Decode.lean ====
section
/-! DEFINITION. From a command word to a command or a decode fault (R120 to R128), and back. -/

namespace Sys2Proof

/-- Why a word is no command: the two causes of R126. -/
inductive DecodeFault where
  /-- Check 1: OP is not assigned (R301). -/
  | illegalOpcode
  /-- Checks 2 to 4: RSV or an unused field nonzero, an illegal operand index, LOADP with N = 0 (R302). -/
  | illegalOperand
  deriving DecidableEq, Repr

/-- The fields of the one command format, CMD32 (R120). -/
structure Fields where
  op  : BitVec 8
  rd  : BitVec 4
  rs1 : BitVec 4
  rs2 : BitVec 4
  n   : BitVec 4
  rsv : BitVec 8
  deriving DecidableEq, Repr

/-- The assigned opcodes (R124). -/
inductive Opcode where
  | nop | zero | load | loadp | comp | aesr | aesrl | linit | lstep | lred | fin | extr | hash
  deriving DecidableEq, Repr

/-- Taking a word apart (R121). -/
def fieldsOf (c : CmdWord) : Fields where
  op  := c.extractLsb' 0 8
  rd  := c.extractLsb' 8 4
  rs1 := c.extractLsb' 12 4
  rs2 := c.extractLsb' 16 4
  n   := c.extractLsb' 20 4
  rsv := c.extractLsb' 24 8

/-- Putting a word together: RSV at 31:24, N at 23:20, RS2 at 19:16, RS1 at 15:12, RD at 11:8, OP at 7:0
(R121). -/
def wordOf (f : Fields) : CmdWord :=
  f.rsv ++ f.n ++ f.rs2 ++ f.rs1 ++ f.rd ++ f.op

/-- The opcode map (R124). -/
def opcodeOf (op : BitVec 8) : Option Opcode :=
  match op.toNat with
  | 0x00 => some .nop
  | 0x01 => some .zero
  | 0x02 => some .load
  | 0x03 => some .loadp
  | 0x04 => some .comp
  | 0x05 => some .aesr
  | 0x06 => some .aesrl
  | 0x08 => some .linit
  | 0x09 => some .lstep
  | 0x0A => some .lred
  | 0x0B => some .fin
  | 0x0C => some .extr
  | 0x10 => some .hash
  | _ => none

/-- An assigned opcode's number (R124). -/
def opcodeNumber : Opcode → BitVec 8
  | .nop   => 0x00#8
  | .zero  => 0x01#8
  | .load  => 0x02#8
  | .loadp => 0x03#8
  | .comp  => 0x04#8
  | .aesr  => 0x05#8
  | .aesrl => 0x06#8
  | .linit => 0x08#8
  | .lstep => 0x09#8
  | .lred  => 0x0A#8
  | .fin   => 0x0B#8
  | .extr  => 0x0C#8
  | .hash  => 0x10#8

/-- The operand map read as a destination: only 0..9 may be written (R31). -/
def destOf (k : BitVec 4) : Option VReg :=
  match k.toNat with
  | 0 => some .v0
  | 1 => some .v1
  | 2 => some .v2
  | 3 => some .v3
  | 4 => some .v4
  | 5 => some .v5
  | 6 => some .v6
  | 7 => some .v7
  | 8 => some .acc
  | 9 => some .tmp
  | _ => none

/-- The operand map read as a source: 0..9 and 12..15 (R31). -/
def srcOf (k : BitVec 4) : Option Src :=
  match k.toNat with
  | 12 => some .zr
  | 13 => some .salt1
  | 14 => some .salt2
  | 15 => some .salt3
  | _ => (destOf k).map .reg

/-- A vector register's operand index (R30). -/
def regIndex : VReg → BitVec 4
  | .v0 => 0#4
  | .v1 => 1#4
  | .v2 => 2#4
  | .v3 => 3#4
  | .v4 => 4#4
  | .v5 => 5#4
  | .v6 => 6#4
  | .v7 => 7#4
  | .acc => 8#4
  | .tmp => 9#4

/-- A source operand's index (R31). -/
def srcIndex : Src → BitVec 4
  | .reg r => regIndex r
  | .zr => 12#4
  | .salt1 => 13#4
  | .salt2 => 14#4
  | .salt3 => 15#4

/-- Which of RD, RS1, RS2 and N an opcode uses (R124, "Fields used"). -/
def usedFields : Opcode → Bool × Bool × Bool × Bool
  | .nop   => (false, false, false, false)
  | .zero  => (true,  false, false, false)
  | .load  => (true,  false, false, false)
  | .loadp => (true,  false, false, true)
  | .comp  => (true,  true,  true,  false)
  | .aesr  => (true,  true,  true,  false)
  | .aesrl => (true,  true,  true,  false)
  | .linit => (false, false, false, false)
  | .lstep => (false, false, false, false)
  | .lred  => (true,  false, false, false)
  | .fin   => (false, true,  false, false)
  | .extr  => (false, true,  false, false)
  | .hash  => (false, false, false, false)

/-- Check 2 of R126: RSV and every field the opcode does not use are 0. -/
def unusedFieldsZero (o : Opcode) (f : Fields) : Bool :=
  let u := usedFields o
  f.rsv == 0#8 && (u.1 || f.rd == 0#4) && (u.2.1 || f.rs1 == 0#4) &&
    (u.2.2.1 || f.rs2 == 0#4) && (u.2.2.2 || f.n == 0#4)

/-- Check 3 of R126 with the operands it lets through: `none` where a destination names 10..15 or a
source names 10 or 11. -/
def operandsOf (o : Opcode) (f : Fields) : Option Instr :=
  match o with
  | .nop   => some .nop
  | .zero  => (destOf f.rd).map .zero
  | .load  => (destOf f.rd).map .load
  | .loadp => (destOf f.rd).map (.loadp · f.n)
  | .comp  => (destOf f.rd).bind fun d => (srcOf f.rs1).bind fun a => (srcOf f.rs2).map (.comp d a)
  | .aesr  => (destOf f.rd).bind fun d => (srcOf f.rs1).bind fun a => (srcOf f.rs2).map (.aesr d a)
  | .aesrl => (destOf f.rd).bind fun d => (srcOf f.rs1).bind fun a => (srcOf f.rs2).map (.aesrl d a)
  | .linit => some .linit
  | .lstep => some .lstep
  | .lred  => (destOf f.rd).map .lred
  | .fin   => (srcOf f.rs1).map .fin
  | .extr  => (srcOf f.rs1).map .extr
  | .hash  => some .hash

/-- Decoding runs the four checks of R126 in order; no word falls through to a no-op (R127), and no mode
bit takes part (R128). -/
def decode (c : CmdWord) : Except DecodeFault Instr :=
  match opcodeOf (fieldsOf c).op with
  | none => .error .illegalOpcode
  | some o =>
    if unusedFieldsZero o (fieldsOf c) then
      match operandsOf o (fieldsOf c) with
      | none => .error .illegalOperand
      | some i => if i.wellFormed then .ok i else .error .illegalOperand
    else .error .illegalOperand

/-- The opcode of a command (R124). -/
def opcode : Instr → Opcode
  | .nop => .nop
  | .zero _ => .zero
  | .load _ => .load
  | .loadp _ _ => .loadp
  | .comp _ _ _ => .comp
  | .aesr _ _ _ => .aesr
  | .aesrl _ _ _ => .aesrl
  | .linit => .linit
  | .lstep => .lstep
  | .lred _ => .lred
  | .fin _ => .fin
  | .extr _ => .extr
  | .hash => .hash

/-- The word with the given operand fields and RSV = 0 (R121). -/
def wordWith (o : Opcode) (rd rs1 rs2 n : BitVec 4) : CmdWord :=
  wordOf ⟨opcodeNumber o, rd, rs1, rs2, n, 0#8⟩

/-- The word of a command: its operand fields in place, every other field 0 (R121, R124). -/
def encode : Instr → CmdWord
  | .nop => wordWith .nop 0 0 0 0
  | .zero rd => wordWith .zero (regIndex rd) 0 0 0
  | .load rd => wordWith .load (regIndex rd) 0 0 0
  | .loadp rd n => wordWith .loadp (regIndex rd) 0 0 n
  | .comp rd a b => wordWith .comp (regIndex rd) (srcIndex a) (srcIndex b) 0
  | .aesr rd a b => wordWith .aesr (regIndex rd) (srcIndex a) (srcIndex b) 0
  | .aesrl rd a b => wordWith .aesrl (regIndex rd) (srcIndex a) (srcIndex b) 0
  | .linit => wordWith .linit 0 0 0 0
  | .lstep => wordWith .lstep 0 0 0 0
  | .lred rd => wordWith .lred (regIndex rd) 0 0 0
  | .fin a => wordWith .fin 0 (srcIndex a) 0 0
  | .extr a => wordWith .extr 0 (srcIndex a) 0 0
  | .hash => wordWith .hash 0 0 0 0

/-- The match value of an opcode's row (R125). -/
def rowMatch : Opcode → CmdWord
  | .nop   => 0x00000000#32
  | .zero  => 0x00000001#32
  | .load  => 0x00000002#32
  | .loadp => 0x00000003#32
  | .comp  => 0x00000004#32
  | .aesr  => 0x00000005#32
  | .aesrl => 0x00000006#32
  | .linit => 0x00000008#32
  | .lstep => 0x00000009#32
  | .lred  => 0x0000000A#32
  | .fin   => 0x0000000B#32
  | .extr  => 0x0000000C#32
  | .hash  => 0x00000010#32

/-- The mask of an opcode's row (R125). -/
def rowMask : Opcode → CmdWord
  | .nop   => 0xFFFFFFFF#32
  | .zero  => 0xFFFFF0FF#32
  | .load  => 0xFFFFF0FF#32
  | .loadp => 0xFF0FF0FF#32
  | .comp  => 0xFFF000FF#32
  | .aesr  => 0xFFF000FF#32
  | .aesrl => 0xFFF000FF#32
  | .linit => 0xFFFFFFFF#32
  | .lstep => 0xFFFFFFFF#32
  | .lred  => 0xFFFFF0FF#32
  | .fin   => 0xFFFF0FFF#32
  | .extr  => 0xFFFF0FFF#32
  | .hash  => 0xFFFFFFFF#32

/-- The commands a pseudo-instruction stands for (R131). -/
def expandPseudo : Pseudo → List Instr
  | .fold rd rs => [.comp rd (.reg rd) rs]
  | .round rd rs => [.comp rd rs .zr]
  | .finx rs =>
    [.aesr .tmp rs .salt1, .aesr .tmp (.reg .tmp) .salt2, .aesrl .tmp (.reg .tmp) .salt3,
     .extr (.reg .tmp)]

/-- The command the decoder reads from the `nbits`-bit word `w` of the opcode table: a command is one
32-bit word, bit 0 its least significant bit (R120). -/
def decodeTableWord (nbits w : Nat) : Option Instr :=
  (decode (BitVec.ofNat 32 (w % 2 ^ nbits))).toOption

end Sys2Proof
end

