-- ==== Sys2Proof/Machine/Vectors.lean ====
section
/-! DEFINITION. The views of a 128-bit vector: lane bytes, AES state elements, the low half (R10, R191). -/

namespace Sys2Proof.Machine

/-- Lane byte `i` of `v`: bits `8i+7 : 8i` (R10). -/
def laneByte (v : Vec) (i : Nat) : Byte := v.extractLsb' (8 * i) 8

/-- `Vec(b[0..15])`: the vector whose lane byte `i` is `b i`, byte 0 least significant (R11, R82). -/
def vecOfBytes (b : Nat → Byte) : Vec :=
  b 15 ++ b 14 ++ b 13 ++ b 12 ++ b 11 ++ b 10 ++ b 9 ++ b 8 ++
    b 7 ++ b 6 ++ b 5 ++ b 4 ++ b 3 ++ b 2 ++ b 1 ++ b 0

/-- `low64(v) = v[63:0]`, lane bytes 0..7 as a little-endian integer (R10, R83). -/
def low64 (v : Vec) : DWord := v.extractLsb' 0 64

/-- The 64-bit half `h` of `v`, for `h = 0, 1` (R10). -/
def half64 (v : Vec) (h : Nat) : DWord := v.extractLsb' (64 * h) 64

/-- The AES state element in row `r` and column `c`: lane byte `r + 4c` (R191). -/
def stateElem (v : Vec) (r c : Nat) : Byte := laneByte v (r + 4 * c)

/-- The vector whose AES state element in row `r`, column `c` is `f r c` (R191). -/
def vecOfState (f : Nat → Nat → Byte) : Vec := vecOfBytes fun i => f (i % 4) (i / 4)

end Sys2Proof.Machine
end

