-- ==== Sys2Proof/Config.lean ====
section
/-! DEFINITION. The parameters the spec fixes (R8, R9) and those it leaves OPEN. An OPEN parameter is an
opaque constant: nothing in Lean can evaluate it, so no statement can rest on a value of it. -/

namespace Sys2Proof.Config

/-- One past the last bus address, `2 ^ ADDR_W` with `ADDR_W = 64` (R9, R80). -/
abbrev addressSpace : Nat := 2 ^ 64

/-- The size in bytes of the register block (R40). -/
abbrev registerBlockSize : Nat := 0x200

/-- The constant value of the ID register: MAGIC 0x47584831, REV 7 (R44). -/
def idValue : DWord := 0x0000_0007_4758_4831#64

/-- OPEN: the salt constant `SALT1` (R7, R33; decision D7 and note N3: no value may be assumed). -/
opaque salt1 : Vec

/-- OPEN: the salt constant `SALT2` (R7, R33). -/
opaque salt2 : Vec

/-- OPEN: the salt constant `SALT3` (R7, R33). -/
opaque salt3 : Vec

/-- OPEN: `GXH_BASE`, where the platform puts the register block in the host's space (R9, R40). -/
opaque gxhBase : DWord

/-- The free value of a raced byte read: which of the values that the byte has had since the command was
accepted the read numbered `n` of address `a` returns (R93, "admits every such combination"). -/
opaque raceDraw (n a : Nat) : Nat

/-- The free value of a host read while BUSY: at which instant of the running command the read numbered
`n` sees the register (R43, "Which instant is not specified"). -/
opaque busyDraw (n : Nat) : Nat

end Sys2Proof.Config
end

