-- ==== Sys2Proof/Machine/State.lean ====
section
/-! DEFINITION. Everything the spec gives the machine, as plain data, and the state right after reset.

Three groups of fields: the block's own state (R30 to R58); the platform the block sits in, which the spec
leaves OPEN and every statement therefore quantifies over (R7, R9, R80, R86); and the model's own
bookkeeping (what the outside world does next, what a host read returned, what a race or a busy read may
draw from). -/

namespace Sys2Proof.Machine

/-- The ten writable vector registers (R30). -/
structure VRegs where
  v0  : Vec
  v1  : Vec
  v2  : Vec
  v3  : Vec
  v4  : Vec
  v5  : Vec
  v6  : Vec
  v7  : Vec
  acc : Vec
  tmp : Vec
  deriving DecidableEq, Repr

/-- The fault causes (R300). `none` is the reset value only. Codes 5..255 are never raised, so they have
no constructor. -/
inductive Cause where
  | none
  | illegalOpcode
  | illegalOperand
  | addrWrap
  | accessFault
  deriving DecidableEq, Repr

/-- The sequencer position (R35): idle, or executing the command word `c` at internal step `j`. For HASH
`j` counts the lines of the microprogram of R272 already done; for every other command it is 0. -/
inductive Seq where
  | idle
  | exec (c : CmdWord) (j : Nat)
  deriving DecidableEq, Repr

/-- HASH's internal counters (R36), computed from LEN once the range check of R271 has passed. The loop
index of R36 is the sequencer's `j` (see `HashCounters.loopIndex`). -/
structure HashCounters where
  total  : Nat
  r      : Nat
  unroll : Nat
  k      : Nat
  deriving DecidableEq, Repr

/-- What the platform does with a read of an address (R86, R87, R367). An address in no region is ordinary
memory: the read is answered with the byte it holds. -/
inductive RegionKind where
  /-- The platform refuses the read: `MemAdmit` is false there (R86). -/
  | refusing
  /-- The platform never answers the read (R367). -/
  | silent
  /-- A read there has side effects, such as a device register: outside the model (R87, D30). -/
  | sideEffect
  deriving DecidableEq, Repr

/-- A stretch of the address space that is not ordinary memory. -/
structure Region where
  base : Nat
  size : Nat
  kind : RegionKind
  deriving DecidableEq, Repr

/-- A host access to the register block, of `width` bytes at host address `addr` (R41). Widths and
addresses that R41 forbids can be written down and are refused. -/
inductive HostAccess where
  | read (addr : DWord) (width : Nat)
  | write (addr : DWord) (width : Nat) (data : DWord)
  deriving DecidableEq, Repr

/-- What happens next in the world around the block, and how the engine's progress lies between it (R14,
R307, R350, R93). -/
inductive Event where
  /-- The host accesses the register block. -/
  | host (a : HostAccess)
  /-- The engine does one internal step. -/
  | tick
  /-- The host's access and one internal step of the engine fall in the same cycle (R307). -/
  | sameCycle (a : HostAccess)
  /-- The platform's reset input (R350). -/
  | hardReset
  /-- Another agent, or the host, writes a byte of platform memory (R93, R94 item 3). -/
  | memWrite (addr : DWord) (b : Byte)
  deriving DecidableEq, Repr

/-- The registers a host read while BUSY may see at any instant of the running command (R43). -/
structure Snapshot where
  v      : VRegs
  ptr    : DWord
  result : DWord
  deriving DecidableEq, Repr

/-- Platform memory: the bytes that differ from what an unlisted address reads as, addresses strictly
rising. -/
abbrev Memory := List Host.Cell

/-- The machine. -/
structure State where
  /-- V0..V7, ACC, TMP (R30). -/
  v : VRegs
  /-- PTR (R52). -/
  ptr : DWord
  /-- LEN (R53). -/
  len : DWord
  /-- RESULT (R54). -/
  result : DWord
  /-- CTRL.TAIL_MODE: false bounded, true over-read (R45). -/
  tailMode : Bool
  /-- CTRL.IE_DONE (R45). -/
  ieDone : Bool
  /-- CTRL.IE_FAULT (R45). -/
  ieFault : Bool
  /-- STATUS.DONE (R47). -/
  done : Bool
  /-- STATUS.FAULT (R47). -/
  fault : Bool
  /-- STATUS.CMDERR (R47). -/
  cmdErr : Bool
  /-- CAUSE (R50). -/
  cause : Cause
  /-- FAULT_ADDR (R51). -/
  faultAddr : DWord
  /-- LASTCMD bits 31:0 (R56). -/
  lastCmd : CmdWord
  /-- The sequencer position (R35). STATUS.BUSY is 1 exactly when it is not idle. -/
  seq : Seq
  /-- HASH's internal counters; outside a running HASH they hold no value (R36, R350). -/
  counters : Option HashCounters
  /-- The finalizer's intermediate vector `h`; outside the finalizer it holds no value (R36, R350). -/
  finH : Option Vec
  /-- The salt constant SALT1 (R7, R33). -/
  salt1 : Vec
  /-- The salt constant SALT2 (R7, R33). -/
  salt2 : Vec
  /-- The salt constant SALT3 (R7, R33). -/
  salt3 : Vec
  /-- `GXH_BASE` of this instance of the block (R9, R40, R320). -/
  gxhBase : DWord
  /-- The platform memory behind the memory port (R80). -/
  mem : Memory
  /-- Where the platform's memory is not ordinary memory: with it, `MemAdmit` (R86). -/
  regions : List Region
  /-- The model's own: the values that bytes written while the running command runs had before (R93). -/
  raced : List Host.Cell
  /-- The model's own: what the registers of R43 held at the earlier instants of the running command. -/
  history : List Snapshot
  /-- The model's own: how many commands were accepted and host reads made; numbers the free draws. -/
  draws : Nat
  /-- The model's own: the value the last host read returned (R41). -/
  readData : DWord
  /-- The model's own: what the world around the block does next (R14); empty lets the engine run. -/
  agenda : List Event
  deriving DecidableEq, Repr

/-- Why the machine itself would stop with a fault. It has no constructor: every fault the spec describes is a
next state, with STATUS.FAULT set and CAUSE and FAULT_ADDR written (R310), so nothing raises one; that is
safe. -/
inductive Fault where
  deriving DecidableEq, Repr

/-- Why the model gives a step no meaning. -/
inductive Refusal where
  /-- Raised by an arm of `exec` whose instruction has no meaning yet. Safe: nothing is claimed of it. -/
  | notModelled (mnemonic : String)
  /-- Raised by LOAD, LOADP, LINIT, LSTEP and HASH on a footprint that covers a location with read side
  effects: outside the model (R87, D30 "A model refuses such a launch"). Safe: nothing is claimed of it. -/
  | readSideEffect
  /-- Raised by a host access that is neither 4 nor 8 bytes wide (R41, D30). Safe. -/
  | accessWidth
  /-- Raised by a host access that is not naturally aligned (R41, D30). Safe. -/
  | accessMisaligned
  /-- Raised by a host access outside the 0x200 bytes of the register block (R41, D30). Safe. -/
  | accessOutsideBlock
  deriving DecidableEq, Repr

/-- Every vector register all-zero (R30). -/
def VRegs.zero : VRegs := ⟨0, 0, 0, 0, 0, 0, 0, 0, 0, 0⟩

/-- The machine right after reset (R350, R351). The salts and `GXH_BASE` are the OPEN parameters; platform
memory lists nothing and answers every read; nothing is about to happen. -/
def State.reset : State where
  v := VRegs.zero
  ptr := 0
  len := 0
  result := 0
  tailMode := false
  ieDone := false
  ieFault := false
  done := false
  fault := false
  cmdErr := false
  cause := .none
  faultAddr := 0
  lastCmd := 0
  seq := .idle
  counters := none
  finH := none
  salt1 := Config.salt1
  salt2 := Config.salt2
  salt3 := Config.salt3
  gxhBase := Config.gxhBase
  mem := []
  regions := []
  raced := []
  history := []
  draws := 0
  readData := 0
  agenda := []

end Sys2Proof.Machine
end

