-- ==== Sys2Proof/Machine/Flags.lean ====
section
/-! DEFINITION. The status and control bits (R42, R45, R47 to R49). The block has no data flags (R37): these
are all the flags there are. -/

namespace Sys2Proof.Machine

/-- STATUS.BUSY is 1 exactly when the sequencer is not idle (R35, R47). -/
def busy (s : State) : Bool :=
  match s.seq with
  | .idle => false
  | .exec _ _ => true

/-- The interrupt line, `(DONE AND IE_DONE) OR (FAULT AND IE_FAULT)` (R49, R316). -/
def irqLine (s : State) : Bool := (s.done && s.ieDone) || (s.fault && s.ieFault)

/-- A single bit at position `i` of a 64-bit register. -/
def bitAt (b : Bool) (i : Nat) : DWord := if b then 1#64 <<< i else 0#64

/-- What STATUS reads: BUSY, DONE, FAULT, CMDERR, IRQ in bits 0 to 4, the rest 0 (R47). -/
def statusWord (s : State) : DWord :=
  bitAt (busy s) 0 ||| bitAt s.done 1 ||| bitAt s.fault 2 ||| bitAt s.cmdErr 3 ||| bitAt (irqLine s) 4

/-- What CTRL reads: TAIL_MODE, IE_DONE, IE_FAULT in bits 0 to 2; SRST and the reserved bits read 0
(R45). -/
def ctrlWord (s : State) : DWord := bitAt s.tailMode 0 ||| bitAt s.ieDone 1 ||| bitAt s.ieFault 2

/-- Writing CTRL's RW fields from the written word; the reserved bits are ignored (R45). -/
def setCtrl (s : State) (w : DWord) : State :=
  { s with tailMode := w.getLsbD 0, ieDone := w.getLsbD 1, ieFault := w.getLsbD 2 }

/-- The W1C write of STATUS: each of DONE, FAULT and CMDERR whose bit is 1 in `w` is cleared, the other bits
ignore the write (R48). Clearing FAULT this way is the return from a fault; it changes nothing else
(R313). -/
def clearStatus (s : State) (w : DWord) : State :=
  { s with
    done := s.done && !w.getLsbD 1
    fault := s.fault && !w.getLsbD 2
    cmdErr := s.cmdErr && !w.getLsbD 3 }

/-- A host write the block turns away sets CMDERR and does nothing else (R42, R55). -/
def rejectWrite (s : State) : State := { s with cmdErr := true }

/-- The number CAUSE holds for a cause (R300). -/
def causeCode : Cause → BitVec 8
  | .none => 0
  | .illegalOpcode => 1
  | .illegalOperand => 2
  | .addrWrap => 3
  | .accessFault => 4

end Sys2Proof.Machine
end

