-- ==== Sys2Proof/Machine/Operands.lean ====
section
/-! DEFINITION. The operand forms: reading and writing a vector register, reading a source operand, and the
lanes taken together (R30 to R34, R57). -/

namespace Sys2Proof.Machine

/-- `V[k]` (R11, R30). -/
def getReg (v : VRegs) : VReg → Vec
  | .v0 => v.v0
  | .v1 => v.v1
  | .v2 => v.v2
  | .v3 => v.v3
  | .v4 => v.v4
  | .v5 => v.v5
  | .v6 => v.v6
  | .v7 => v.v7
  | .acc => v.acc
  | .tmp => v.tmp

/-- `V[k] <- x` (R11, R30). -/
def setReg (v : VRegs) (k : VReg) (x : Vec) : VRegs :=
  match k with
  | .v0 => { v with v0 := x }
  | .v1 => { v with v1 := x }
  | .v2 => { v with v2 := x }
  | .v3 => { v with v3 := x }
  | .v4 => { v with v4 := x }
  | .v5 => { v with v5 := x }
  | .v6 => { v with v6 := x }
  | .v7 => { v with v7 := x }
  | .acc => { v with acc := x }
  | .tmp => { v with tmp := x }

/-- Lane register `i` for `i` in 0..7 (R30). -/
def laneReg (i : Nat) : VReg :=
  match i with
  | 0 => .v0
  | 1 => .v1
  | 2 => .v2
  | 3 => .v3
  | 4 => .v4
  | 5 => .v5
  | 6 => .v6
  | _ => .v7

/-- The lanes V0..V7 written together, lane `i` with `x i`; ACC and TMP stay (R220, R223). -/
def setLanes (v : VRegs) (x : Nat → Vec) : VRegs :=
  ⟨x 0, x 1, x 2, x 3, x 4, x 5, x 6, x 7, v.acc, v.tmp⟩

/-- `Op(k)`: a source operand's value. ZR is hardwired zero (R32), a salt is the constant (R33). -/
def srcValue (s : State) : Src → Vec
  | .reg r => getReg s.v r
  | .zr => 0
  | .salt1 => s.salt1
  | .salt2 => s.salt2
  | .salt3 => s.salt3

/-- The state with one vector register written. -/
def writeReg (s : State) (k : VReg) (x : Vec) : State := { s with v := setReg s.v k x }

end Sys2Proof.Machine
end

