-- ==== Sys2Proof/Machine/Ops.lean ====
section
/-! DEFINITION. The shared operations: platform memory, an access through the memory port, how a command is
accepted, completes or ends in a fault, and reset. -/

namespace Sys2Proof.Machine

/-! ### Platform memory -/

/-- What an address that memory does not list reads as. DESIGN CHOICE (log entry 2): the spec leaves the
contents of platform memory to the platform (R87). -/
def unlistedByte : Byte := 0

/-- The byte platform memory holds at address `a` (R87). -/
def Memory.read : Memory → Nat → Byte
  | [], _ => unlistedByte
  | (k, b) :: m, a => if k = a then b else Memory.read m a

/-- Platform memory with the byte at `a` replaced, in canonical form. -/
def Memory.write : Memory → Nat → Byte → Memory
  | [], a, x => if x = unlistedByte then [] else [(a, x)]
  | (k, b) :: m, a, x =>
    if a < k then (if x = unlistedByte then (k, b) :: m else (a, x) :: (k, b) :: m)
    else if a = k then (if x = unlistedByte then m else (a, x) :: m)
    else (k, b) :: Memory.write m a x

/-- The canonical form: addresses strictly rising and inside the address space, no entry equal to what an
unlisted address reads as. -/
def Memory.wf (m : Memory) : Bool :=
  decide (m.Pairwise fun c d => c.1 < d.1) &&
    m.all fun c => decide (c.1 < Config.addressSpace) && c.2 != unlistedByte

/-! ### Free draws -/

/-- A free choice, numbered `n`, among `x` and `xs`; where they are all the same there is nothing to
choose. -/
def drawFrom {α : Type} [DecidableEq α] (n : Nat) (x : α) (xs : List α) : α :=
  if ∀ y ∈ xs, y = x then x else (x :: xs).getD (n % (xs.length + 1)) x

/-! ### The memory port -/

/-- Whether a byte of `[a, a+n)` lies in a region of kind `k`. -/
def touches (s : State) (k : RegionKind) (a n : Nat) : Bool :=
  s.regions.any fun r => r.kind == k && decide (max r.base a < min (r.base + r.size) (a + n))

/-- `MemAdmit(a)`: whether the platform memory answers a read of byte `a` with data (R86). -/
def memAdmit (s : State) (a : Nat) : Bool := !touches s .refusing a 1

/-- The value an admitted read of byte `a` returns: what memory holds there (R87); for a byte that another
agent wrote while the command runs, a free choice among the values it has had since (R93). -/
def byteAt (s : State) (a : Nat) : Byte :=
  drawFrom (Config.raceDraw s.draws a) (Memory.read s.mem a)
    ((s.raced.filter fun c => c.1 == a).map fun c => c.2)

/-- The 16-byte block at address `a`, the byte at `a + i` in lane byte `i` (R82). -/
def blockAt (s : State) (a : Nat) : Vec := vecOfBytes fun i => byteAt s (a + i)

/-- The partial block of `n` bytes at `a`, zero-filled (R166, R167). -/
def partialAt (s : State) (a n : Nat) : Vec :=
  vecOfBytes fun i => if i < n then byteAt s (a + i) else 0

/-- How the platform takes the reads of `[a, a+n)`. -/
inductive PortAnswer where
  /-- Every byte is admitted. -/
  | answered
  /-- Some byte is refused (R86). -/
  | refused
  /-- Some byte is never answered (R367). -/
  | silent
  /-- Some byte has read side effects (R87). -/
  | outside
  deriving DecidableEq, Repr

/-- The answer to the reads of `[a, a+n)`. A footprint with read side effects is outside the model before
anything else (R87); a read that is never answered keeps the command from ever ending (R367), so it comes
before a refusal. -/
def portAnswer (s : State) (a n : Nat) : PortAnswer :=
  if touches s .sideEffect a n then .outside
  else if touches s .silent a n then .silent
  else if touches s .refusing a n then .refused
  else .answered

/-- How the effect of a command, or of one line of HASH's microprogram, ends. -/
inductive OpResult where
  /-- The registers are written. -/
  | done (s : State)
  /-- `raise Fault(cause, addr)` in state `s` (R11). -/
  | fault (s : State) (c : Cause) (addr : DWord)
  /-- A read was never answered (R367). -/
  | stuck (s : State)
  /-- The footprint covers a location with read side effects (R87). -/
  | outside
  deriving DecidableEq, Repr

/-- An access of `[a, a+n)`, in the order of R306: past the top of the address space it raises ADDR_WRAP with
`a` and reads nothing (R90, R303); a refused byte raises ACCESS_FAULT with the address `fa` (R304);
otherwise the state becomes `s'`. -/
def accessThen (s : State) (a n : Nat) (fa : DWord) (s' : State) : OpResult :=
  if Config.addressSpace < a + n then .fault s .addrWrap (BitVec.ofNat 64 a)
  else
    match portAnswer s a n with
    | .answered => .done s'
    | .refused => .fault s .accessFault fa
    | .silent => .stuck s
    | .outside => .outside

/-! ### Acceptance, completion, fault, reset -/

/-- The engine goes idle; the hidden state of the command is gone (R36). -/
def toIdle (s : State) : State :=
  { s with seq := .idle, counters := none, finH := none, raced := [], history := [] }

/-- Acceptance of command word `c`: LASTCMD, BUSY, and the sequencer at `EXEC(c, 0)` (R55). -/
def acceptCommand (s : State) (c : CmdWord) : State :=
  { s with
    lastCmd := c, seq := .exec c 0, counters := none, finH := none, raced := [], history := []
    draws := s.draws + 1 }

/-- Completion without a fault: DONE, not BUSY, idle (R311). -/
def complete (s : State) : State := { toIdle s with done := true }

/-- Taking a fault: CAUSE and FAULT_ADDR written, FAULT, not BUSY, idle (R310). No vector, no mode, no other
register (R312). -/
def raiseFault (s : State) (c : Cause) (addr : DWord) : State :=
  { toIdle s with cause := c, faultAddr := addr, fault := true }

/-- The end of a command, as its effect ended. A command whose read is never answered stays where it is, BUSY
(R367). -/
def conclude : OpResult → Host.Outcome State Fault Refusal
  | .done s => .next (complete s)
  | .fault s c a => .next (raiseFault s c a)
  | .stuck s => .next s
  | .outside => .refused .readSideEffect

/-- Reset of the block, hard or soft (R350): every register at its reset value, the sequencer idle, a running
command abandoned. The salts and `GXH_BASE` are constants; platform memory and the world around the block
are not the block's. -/
def resetBlock (s : State) : State :=
  { State.reset with
    salt1 := s.salt1, salt2 := s.salt2, salt3 := s.salt3, gxhBase := s.gxhBase
    mem := s.mem, regions := s.regions, draws := s.draws, readData := s.readData
    agenda := s.agenda }

/-- Another agent writes a byte of platform memory; while a command runs the byte's earlier value stays one
its reads may return (R93). -/
def writeMemory (s : State) (a : Nat) (x : Byte) : State :=
  { s with
    mem := Memory.write s.mem a x
    raced := if busy s then (a, Memory.read s.mem a) :: s.raced else s.raced }

end Sys2Proof.Machine
end

