-- ==== Sys2Proof/Machine/AesCommands.lean ====
section
/-! DEFINITION. COMP, AESR, AESRL (R200 to R205). Both operands are read before the destination is written
(R12). -/

namespace Sys2Proof.Machine

/-- `V[RD] <- compress(Op(RS1), Op(RS2))` (R200). -/
def compEffect (rd : VReg) (rs1 rs2 : Src) (s : State) : OpResult :=
  .done (writeReg s rd (compress (srcValue s rs1) (srcValue s rs2)))

/-- COMP rd, rs1, rs2 (R200). -/
def execComp (rd : VReg) (rs1 rs2 : Src) (s : State) : Host.Outcome State Fault Refusal :=
  conclude (compEffect rd rs1 rs2 s)

/-- AESR rd, rs1, rs2: `V[RD] <- AESRound(Op(RS1), Op(RS2))` (R202). -/
def execAesr (rd : VReg) (rs1 rs2 : Src) (s : State) : Host.Outcome State Fault Refusal :=
  conclude (.done (writeReg s rd (encryptRound (srcValue s rs1) (srcValue s rs2))))

/-- AESRL rd, rs1, rs2: the last finalizer round, MixColumns included (R204, conflict C1). -/
def execAesrl (rd : VReg) (rs1 rs2 : Src) (s : State) : Host.Outcome State Fault Refusal :=
  conclude (.done (writeReg s rd (encryptRoundLast (srcValue s rs1) (srcValue s rs2))))

end Sys2Proof.Machine
end

