-- ==== Sys2Proof/Machine/Finalizer.lean ====
section
/-! DEFINITION. FIN, EXTR (R250 to R255). -/

namespace Sys2Proof.Machine

/-- The finalizer's vector `h` after its three salted rounds, salts in the order given (R250, R251). -/
def finalizerRounds (s1 s2 s3 acc : Vec) : Vec :=
  encryptRoundLast (encryptRound (encryptRound acc s1) s2) s3

/-- `h` goes to the finalizer's hidden register, its low 64 bits to RESULT; no vector register is written
(R250, R36). -/
def finEffect (rs1 : Src) (s : State) : OpResult :=
  let h := finalizerRounds s.salt1 s.salt2 s.salt3 (srcValue s rs1)
  .done { s with finH := some h, result := low64 h }

/-- FIN rs1 (R250). -/
def execFin (rs1 : Src) (s : State) : Host.Outcome State Fault Refusal := conclude (finEffect rs1 s)

/-- EXTR rs1: `RESULT <- Op(RS1)[63:0]` (R253, R254). -/
def execExtr (rs1 : Src) (s : State) : Host.Outcome State Fault Refusal :=
  conclude (.done { s with result := low64 (srcValue s rs1) })

end Sys2Proof.Machine
end

