-- ==== Sys2Proof/Machine/Lanes.lean ====
section
/-! DEFINITION. LINIT, LSTEP, LRED (R220 to R228). -/

namespace Sys2Proof.Machine

/-- FAULT_ADDR of an access fault on the 8 blocks at `p`: the start of the lowest-numbered block that holds a
refused byte (R220, R304). -/
def laneFaultAddr (s : State) (p : Nat) : DWord :=
  match (List.range 8).find? fun i => touches s .refusing (p + 16 * i) 16 with
  | some i => BitVec.ofNat 64 (p + 16 * i)
  | none => BitVec.ofNat 64 p

/-- Lane `i` gets block `i` at PTR, all 8 together; PTR advances by 128 (R220, R221). -/
def linitEffect (s : State) : OpResult :=
  accessThen s s.ptr.toNat 128 (laneFaultAddr s s.ptr.toNat)
    { s with
      v := setLanes s.v fun i => blockAt s (s.ptr.toNat + 16 * i)
      ptr := s.ptr + 128 }

/-- LINIT (R220). -/
def execLinit (s : State) : Host.Outcome State Fault Refusal := conclude (linitEffect s)

/-- Lane `i` becomes `compress(V[i], block i)`; PTR advances by 128 (R223). -/
def lstepEffect (s : State) : OpResult :=
  accessThen s s.ptr.toNat 128 (laneFaultAddr s s.ptr.toNat)
    { s with
      v := setLanes s.v fun i =>
        compress (getReg s.v (laneReg i)) (blockAt s (s.ptr.toNat + 16 * i))
      ptr := s.ptr + 128 }

/-- LSTEP (R223). It does not check for an earlier LINIT (R224). -/
def execLstep (s : State) : Host.Outcome State Fault Refusal := conclude (lstepEffect s)

/-- The fixed pairwise tree over the lanes `x 0 .. x 7` (R226, R227). -/
def laneTree (x : Nat → Vec) : Vec :=
  compress
    (compress (compress (x 0) (x 1)) (compress (x 2) (x 3)))
    (compress (compress (x 4) (x 5)) (compress (x 6) (x 7)))

/-- `V[RD] <- tree(V0..V7)`, all lanes read before the write (R226). -/
def lredEffect (rd : VReg) (s : State) : OpResult :=
  .done (writeReg s rd (laneTree fun i => getReg s.v (laneReg i)))

/-- LRED rd (R226). -/
def execLred (rd : VReg) (s : State) : Host.Outcome State Fault Refusal := conclude (lredEffect rd s)

end Sys2Proof.Machine
end

