-- ==== Sys2Proof/Machine/VectorState.lean ====
section
/-! DEFINITION. NOP, ZERO, LOAD, LOADP (R160 to R168). An effect is what a command does to the registers; the
meaning of the command adds its end (R310, R311). -/

namespace Sys2Proof.Machine

/-- NOP has no register, memory or PTR effect; it completes (R160). -/
def execNop (s : State) : Host.Outcome State Fault Refusal := .next (complete s)

/-- `V[RD] <- 0^128` (R161). -/
def zeroEffect (rd : VReg) (s : State) : OpResult := .done (writeReg s rd 0)

/-- ZERO rd (R161). -/
def execZero (rd : VReg) (s : State) : Host.Outcome State Fault Refusal := conclude (zeroEffect rd s)

/-- The 16 bytes at PTR go to `V[RD]`, PTR advances by 16 modulo 2^64 (R163, R164). -/
def loadEffect (rd : VReg) (s : State) : OpResult :=
  accessThen s s.ptr.toNat 16 s.ptr
    { writeReg s rd (blockAt s s.ptr.toNat) with ptr := s.ptr + 16 }

/-- LOAD rd (R163). -/
def execLoad (rd : VReg) (s : State) : Host.Outcome State Fault Refusal := conclude (loadEffect rd s)

/-- How many bytes a partial load of `n` bytes reads: 16 in over-read mode, `n` in bounded mode (R166). -/
def partialReads (s : State) (n : Nat) : Nat := if s.tailMode then 16 else n

/-- The `n` bytes at PTR, zero-filled, go to `V[RD]`; PTR advances by `n` (R166). -/
def loadpEffect (rd : VReg) (n : Nat) (s : State) : OpResult :=
  accessThen s s.ptr.toNat (partialReads s n) s.ptr
    { writeReg s rd (partialAt s s.ptr.toNat n) with ptr := s.ptr + BitVec.ofNat 64 n }

/-- LOADP rd, #n (R166). The encoding never gives `n = 0`; the term `n = 0` takes the fault the spec names for
it (R122, R302). -/
def execLoadp (rd : VReg) (n : BitVec 4) (s : State) : Host.Outcome State Fault Refusal :=
  if n = 0#4 then .next (raiseFault s .illegalOperand 0) else conclude (loadpEffect rd n.toNat s)

end Sys2Proof.Machine
end

