-- ==== Sys2Proof/Machine/Hash.lean ====
section
/-! DEFINITION. HASH and its microprogram (R270 to R285). -/

namespace Sys2Proof.Machine

/-- A line of the microprogram: a primitive command on ACC, TMP and the lanes (R272). -/
inductive MicroOp where
  | linit
  | lstep
  | lredAcc
  | zeroAcc
  | loadTmp
  | compAcc
  | loadpTmp (r : Nat)
  | finAcc
  deriving DecidableEq, Repr

/-- `total`, `r`, `unroll` and the first serial block `k` for an input of `len` bytes (R271, R272, R281). For
`len < 128` no block is unrolled, and `(total div 8) * 8` is 0. -/
def hashCounters (len : Nat) : HashCounters :=
  let total := len / 16
  ⟨total, len % 16, total / 8 * 8, total / 8 * 8⟩

/-- The first phase: the unrolled lanes for LEN ≥ 128, which is `total ≥ 8`, else the zero accumulator
(R272). -/
def lanePhase (ct : HashCounters) : List MicroOp :=
  if 8 ≤ ct.total then .linit :: (List.replicate (ct.unroll / 8 - 1) .lstep ++ [.lredAcc])
  else [.zeroAcc]

/-- `n` full blocks folded serially (R272). -/
def serialPhase : Nat → List MicroOp
  | 0 => []
  | n + 1 => .loadTmp :: .compAcc :: serialPhase n

/-- Tail absorption (R272, R273). -/
def tailPhase (r : Nat) : List MicroOp := if 0 < r then [.loadpTmp r, .compAcc] else []

/-- The whole microprogram for given counters (R272). -/
def hashProgram (ct : HashCounters) : List MicroOp :=
  lanePhase ct ++ serialPhase (ct.total - ct.k) ++ tailPhase ct.r ++ [.finAcc]

/-- The loop index of R272 when the sequencer stands at line `j`: `g` in the lane loop, `i` in the serial
loop (R36). -/
def HashCounters.loopIndex (ct : HashCounters) (j : Nat) : Nat :=
  let lanes := (lanePhase ct).length
  if j < lanes then j else ct.k + (j - lanes) / 2

/-- A line acts exactly as its primitive command does on the registers; it sets no STATUS bit and not LASTCMD
(R272). -/
def microEffect (op : MicroOp) (s : State) : OpResult :=
  match op with
  | .linit => linitEffect s
  | .lstep => lstepEffect s
  | .lredAcc => lredEffect .acc s
  | .zeroAcc => zeroEffect .acc s
  | .loadTmp => loadEffect .tmp s
  | .compAcc => compEffect .acc (.reg .acc) (.reg .tmp) s
  | .loadpTmp r => loadpEffect .tmp r s
  | .finAcc => finEffect (.reg .acc) s

/-- What a host read while BUSY may see of this instant (R43). -/
def snapshot (s : State) : Snapshot := ⟨s.v, s.ptr, s.result⟩

/-- The sequencer moves on by one line, from a state whose registers read as `sn` (R35, R43). -/
def advance (sn : Snapshot) (s : State) : State :=
  { s with
    seq := match s.seq with
      | .idle => .idle
      | .exec c j => .exec c (j + 1)
    history := sn :: s.history }

/-- One line of the microprogram and the sequencer's move past it. -/
def microStep (op : MicroOp) (s : State) : OpResult :=
  match microEffect op s with
  | .done s' => .done (advance (snapshot s) s')
  | .fault s' c a => .fault s' c a
  | .stuck s' => .stuck s'
  | .outside => .outside

/-- The lines in order; the first that does not finish ends the run, and the lines before it keep their
effects (R283, R312). -/
def runMicro : List MicroOp → State → OpResult
  | [], s => .done s
  | op :: rest, s =>
    match microStep op s with
    | .done s' => runMicro rest s'
    | .fault s' c a => .fault s' c a
    | .stuck s' => .stuck s'
    | .outside => .outside

/-- How many bytes the footprint of HASH has: `e - p0` of R271. -/
def hashReads (s : State) : Nat :=
  let ct := hashCounters s.len.toNat
  if s.tailMode && decide (0 < ct.r) then 16 * ct.total + 16 else s.len.toNat

/-- The range check, before any read (R271), and the side-effect check on the whole footprint (R87, D30). If
both pass, the counters hold their values and the microprogram stands at its first line. -/
def hashLaunch (s : State) : OpResult :=
  if Config.addressSpace < s.ptr.toNat + hashReads s then .fault s .addrWrap s.ptr
  else if touches s .sideEffect s.ptr.toNat (hashReads s) then .outside
  else .done { s with counters := some (hashCounters s.len.toNat) }

/-- HASH from its launch to its end. -/
def hashEffect (s : State) : OpResult :=
  match hashLaunch s with
  | .done s' => runMicro (hashProgram (hashCounters s.len.toNat)) s'
  | .fault s' c a => .fault s' c a
  | .stuck s' => .stuck s'
  | .outside => .outside

/-- HASH: the 64-bit hash of the `LEN` bytes at PTR into RESULT (R270). The engine's progress line by line,
with the host's accesses between the lines, is `engineTick`. -/
def execHash (s : State) : Host.Outcome State Fault Refusal := conclude (hashEffect s)

end Sys2Proof.Machine
end

