-- ==== Sys2Proof/Machine/Dispatch.lean ====
section
/-! DEFINITION. One arm for each command. -/

namespace Sys2Proof.Machine

def exec (i : Instr) (s : State) : Host.Outcome State Fault Refusal :=
  match i with
  | .nop => Sys2Proof.Machine.execNop s
  | .zero rd => Sys2Proof.Machine.execZero rd s
  | .load rd => Sys2Proof.Machine.execLoad rd s
  | .loadp rd n => Sys2Proof.Machine.execLoadp rd n s
  | .comp rd rs1 rs2 => Sys2Proof.Machine.execComp rd rs1 rs2 s
  | .aesr rd rs1 rs2 => Sys2Proof.Machine.execAesr rd rs1 rs2 s
  | .aesrl rd rs1 rs2 => Sys2Proof.Machine.execAesrl rd rs1 rs2 s
  | .linit => Sys2Proof.Machine.execLinit s
  | .lstep => Sys2Proof.Machine.execLstep s
  | .lred rd => Sys2Proof.Machine.execLred rd s
  | .fin rs1 => Sys2Proof.Machine.execFin rs1 s
  | .extr rs1 => Sys2Proof.Machine.execExtr rs1 s
  | .hash => Sys2Proof.Machine.execHash s

end Sys2Proof.Machine
end

