-- ==== Sys2Proof/Machine/Engine.lean ====
section
/-! DEFINITION. The engine, the block's single sequencer (R14, R35): a running command taken to its end, or one
internal step of it; and the instants of it that are still to come. -/

namespace Sys2Proof.Machine

/-- The cause a word that does not decode is reported with (R126). -/
def decodeCause : DecodeFault → Cause
  | .illegalOpcode => .illegalOpcode
  | .illegalOperand => .illegalOperand

/-- The engine runs the command it holds to its end: a word that does not decode faults with address 0 (R126);
a HASH under way goes on from the line it stands at. Idle, it changes nothing (R322). -/
def engineRun (s : State) : Host.Outcome State Fault Refusal :=
  match s.seq with
  | .idle => .next s
  | .exec c j =>
    match s.counters with
    | some ct => conclude (runMicro ((hashProgram ct).drop j) s)
    | none =>
      match decode c with
      | .error e => .next (raiseFault s (decodeCause e) 0)
      | .ok i => exec i s

/-- An internal step that need not be the command's last. -/
def proceed : OpResult → Host.Outcome State Fault Refusal
  | .done s => .next s
  | .fault s c a => .next (raiseFault s c a)
  | .stuck s => .next s
  | .outside => .refused .readSideEffect

/-- One internal step of the engine: HASH does its range check, or one line of its microprogram, or (after the
last line, R311) completes; any other command has a single internal step (R35). -/
def engineTick (s : State) : Host.Outcome State Fault Refusal :=
  match s.seq with
  | .idle => .next s
  | .exec c j =>
    match s.counters with
    | some ct =>
      match (hashProgram ct)[j]? with
      | none => .next (complete s)
      | some op => proceed (microStep op s)
    | none =>
      match decode c with
      | .error e => .next (raiseFault s (decodeCause e) 0)
      | .ok i => if i = .hash then proceed (hashLaunch s) else exec i s

/-- The instants after each of the lines still to run (R43). -/
def microAhead : List MicroOp → State → List Snapshot
  | [], _ => []
  | op :: rest, s =>
    match microStep op s with
    | .done s' => snapshot s' :: microAhead rest s'
    | .fault _ _ _ => []
    | .stuck _ => []
    | .outside => []

/-- The instants of the running command still to come where the engine runs it to its end undisturbed (R43). -/
def engineAhead (s : State) : List Snapshot :=
  match s.seq with
  | .idle => []
  | .exec c j =>
    match s.counters with
    | some ct => microAhead ((hashProgram ct).drop j) s
    | none =>
      match decode c with
      | .error _ => []
      | .ok i =>
        if i = .hash then
          match hashLaunch s with
          | .done s' => microAhead (hashProgram (hashCounters s.len.toNat)) s'
          | .fault _ _ _ => []
          | .stuck _ => []
          | .outside => []
        else
          match exec i s with
          | .next s' => [snapshot s']
          | .fault _ => []
          | .refused _ => []

end Sys2Proof.Machine
end

