-- ==== Sys2Proof/Machine/HostPort.lean ====
section
/-! DEFINITION. The register block as the host sees it (R40 to R57) and what the world around the block can do
to it (R14, R307, R350). -/

namespace Sys2Proof.Machine

/-- The registers of the block, and the halves of the VREG window's slots (R40, R57). -/
inductive RegName where
  | id | ctrl | status | cause | faultAddr | ptr | len | result | cmd | lastCmd
  | vreg (k h : Nat)
  | reserved
  deriving DecidableEq, Repr

/-- The register whose 64-bit slot starts at offset `o`, a multiple of 8 (R40, R57). -/
def regAt (o : Nat) : RegName :=
  match o with
  | 0x000 => .id
  | 0x008 => .ctrl
  | 0x010 => .status
  | 0x018 => .cause
  | 0x020 => .faultAddr
  | 0x028 => .ptr
  | 0x030 => .len
  | 0x038 => .result
  | 0x040 => .cmd
  | 0x048 => .lastCmd
  | _ => if 0x100 ≤ o ∧ o < 0x200 then .vreg ((o - 0x100) / 16) (o / 8 % 2) else .reserved

/-- Half `h` of VREG slot `k`, the registers as in `sn`: 0..9 the register, 10..12 zero, 13..15 the salt
(R57). -/
def vregWord (s : State) (sn : Snapshot) (k h : Nat) : DWord :=
  match srcOf (BitVec.ofNat 4 k) with
  | none => 0
  | some (.reg r) => half64 (getReg sn.v r) h
  | some .zr => 0
  | some .salt1 => half64 s.salt1 h
  | some .salt2 => half64 s.salt2 h
  | some .salt3 => half64 s.salt3 h

/-- What a register reads, PTR, RESULT and the vector registers as in `sn` (R44 to R57). -/
def regWord (s : State) (sn : Snapshot) : RegName → DWord
  | .id => Config.idValue
  | .ctrl => ctrlWord s
  | .status => statusWord s
  | .cause => (causeCode s.cause).setWidth 64
  | .faultAddr => s.faultAddr
  | .ptr => sn.ptr
  | .len => s.len
  | .result => sn.result
  | .cmd => 0
  | .lastCmd => s.lastCmd.setWidth 64
  | .vreg k h => vregWord s sn k h
  | .reserved => 0

/-- The part of a 64-bit register that an access of `width` bytes at offset `o` reaches (R41). -/
def accessedPart (w : DWord) (o width : Nat) : DWord :=
  if width = 8 then w else (w.extractLsb' (8 * (o % 8)) 32).setWidth 64

/-- The 64-bit register after a write of `width` bytes at offset `o`: a 32-bit write changes only its half
(R41). -/
def mergeWrite (old data : DWord) (o width : Nat) : DWord :=
  if width = 8 then data
  else if o % 8 = 4 then data.extractLsb' 0 32 ++ old.extractLsb' 0 32
  else old.extractLsb' 32 32 ++ data.extractLsb' 0 32

/-- Whether a write of `width` bytes at offset `o` reaches bits 31:0 of its register (R41). -/
def reachesLow (o width : Nat) : Bool := width == 8 || o % 8 == 0

/-- A vector with its 64-bit half `h` replaced (R57). -/
def setHalf (v : Vec) (h : Nat) (w : DWord) : Vec :=
  if h = 0 then v.extractLsb' 64 64 ++ w else w ++ v.extractLsb' 0 64

/-- A host write to VREG slot `k` while idle: only 0..9 take it (R57). -/
def writeVreg (s : State) (k h : Nat) (data : DWord) (o width : Nat) : State :=
  match destOf (BitVec.ofNat 4 k) with
  | none => s
  | some r => writeReg s r (setHalf (getReg s.v r) h (mergeWrite (half64 (getReg s.v r) h) data o width))

/-- A host write of `width` bytes at offset `o` (R41, R42, R45 to R57). -/
def hostWrite (s : State) (o width : Nat) (data : DWord) : State :=
  match regAt (o - o % 8) with
  | .ctrl =>
    if reachesLow o width && data.getLsbD 3 then resetBlock s
    else if busy s then rejectWrite s
    else if reachesLow o width then setCtrl s data
    else s
  | .status => if reachesLow o width then clearStatus s data else s
  | .ptr => if busy s then rejectWrite s else { s with ptr := mergeWrite s.ptr data o width }
  | .len => if busy s then rejectWrite s else { s with len := mergeWrite s.len data o width }
  | .cmd =>
    if reachesLow o width then
      if busy s || s.fault then rejectWrite s else acceptCommand s (data.extractLsb' 0 32)
    else s
  | .vreg k h => if busy s then rejectWrite s else writeVreg s k h data o width
  | .id => s
  | .cause => s
  | .faultAddr => s
  | .result => s
  | .lastCmd => s
  | .reserved => s

/-- The offset of a host address in the register block (R40). -/
def blockOffset (s : State) (addr : DWord) : Nat := (addr - s.gxhBase).toNat

/-- Why an access of `width` bytes at offset `o` is outside the model (R41, D30). -/
def accessRefusal (o width : Nat) : Option Refusal :=
  if width ≠ 4 ∧ width ≠ 8 then some .accessWidth
  else if o % width ≠ 0 then some .accessMisaligned
  else if Config.registerBlockSize < o + width then some .accessOutsideBlock
  else none

/-- A host access to the register block, where `read` says what a read of a width at an offset does. -/
def accessWith (read : State → Nat → Nat → State) (s : State) : HostAccess → Host.Outcome State Fault Refusal
  | .read addr width =>
    match accessRefusal (blockOffset s addr) width with
    | some r => .refused r
    | none => .next (read s (blockOffset s addr) width)
  | .write addr width data =>
    match accessRefusal (blockOffset s addr) width with
    | some r => .refused r
    | none => .next (hostWrite s (blockOffset s addr) width data)

/-- What happens next in the world around the block, with `read` as in `accessWith`. A host access in the same
cycle as the engine's step is judged against the state before it, the engine's step being the next thing to come:
a soft reset wins, a status bit that is cleared and set stays set, a CMD write beside a completion is turned away
(R307, R48). -/
def eventWith (read : State → Nat → Nat → State) (e : Event) (s : State) : Host.Outcome State Fault Refusal :=
  match e with
  | .host a => accessWith read s a
  | .tick => engineTick s
  | .sameCycle a =>
    match accessWith read { s with agenda := .tick :: s.agenda } a with
    | .next s' => engineTick { s' with agenda := s.agenda }
    | .fault r => .fault r
    | .refused r => .refused r
  | .hardReset => .next (resetBlock s)
  | .memWrite a x => .next (writeMemory s a.toNat x)

/-! ### Reads, and the instants a read while BUSY may see -/

/-- All that a host read does to the state, but for the value it returns. -/
def countRead (s : State) : State := { s with draws := s.draws + 1 }

/-- The instants of the running command still to come (R43), when the events `es` come first and the engine then
runs undisturbed. A command ends by itself with DONE or FAULT (R310, R311), and the registers as it leaves them
are an instant of it; a reset abandons it and sets neither (R350), so what the reset leaves is none. -/
def aheadOver : List Event → State → List Snapshot
  | [], s => engineAhead s
  | e :: es, s =>
    match eventWith (fun s _ _ => countRead s) e s with
    | .next s' =>
      if busy s' then snapshot s' :: aheadOver es s'
      else if s'.done || s'.fault then [snapshot s']
      else []
    | .fault _ => []
    | .refused _ => []

/-- The instants of the running command still to come (R43): those the machine goes through on its agenda, which
is the whole of what the outside world will do. -/
def commandAhead (s : State) : List Snapshot := aheadOver s.agenda s

/-- A read while BUSY: at some instant of the running command, which one is free (R43). Only PTR, RESULT and
the vector registers change while a command runs; LASTCMD, which R43 names too, keeps one value. -/
def busyWord (s : State) (reg : RegName) : DWord :=
  drawFrom (Config.busyDraw s.draws) (regWord s (snapshot s) reg)
    ((s.history ++ commandAhead (countRead s)).map fun sn => regWord s sn reg)

/-- What a host read of a register returns (R43, R44 to R57). -/
def readWord (s : State) (reg : RegName) : DWord :=
  match reg with
  | .ptr => if busy s then busyWord s reg else regWord s (snapshot s) reg
  | .result => if busy s then busyWord s reg else regWord s (snapshot s) reg
  | .vreg _ _ => if busy s then busyWord s reg else regWord s (snapshot s) reg
  | .id => regWord s (snapshot s) reg
  | .ctrl => regWord s (snapshot s) reg
  | .status => regWord s (snapshot s) reg
  | .cause => regWord s (snapshot s) reg
  | .faultAddr => regWord s (snapshot s) reg
  | .len => regWord s (snapshot s) reg
  | .cmd => regWord s (snapshot s) reg
  | .lastCmd => regWord s (snapshot s) reg
  | .reserved => regWord s (snapshot s) reg

/-- A host read of `width` bytes at offset `o` (R41, R43). -/
def hostRead (s : State) (o width : Nat) : State :=
  { countRead s with readData := accessedPart (readWord s (regAt (o - o % 8))) o width }

/-- A host access to the register block. -/
def hostAccess (s : State) (a : HostAccess) : Host.Outcome State Fault Refusal := accessWith hostRead s a

/-- What happens next in the world around the block (R14, R307, R350). -/
def runEvent (e : Event) (s : State) : Host.Outcome State Fault Refusal := eventWith hostRead e s

end Sys2Proof.Machine
end

