-- ==== Sys2Proof/Machine/Step.lean ====
section
/-! DEFINITION. One step of the machine: the next event of the agenda, or, where nothing else is about to
happen, the engine. -/

namespace Sys2Proof.Machine

/-- One step. -/
def step (s : State) : Host.Outcome State Fault Refusal :=
  match s.agenda with
  | [] => engineRun s
  | e :: rest => runEvent e { s with agenda := rest }

/-- The state in which the command word `w` has just been accepted (R55) and nothing else is about to happen,
so that the next step runs it. The block fetches nothing (R97): acceptance is how a command gets to where
the engine takes it from. -/
def State.withFetchWord (s : State) (nbits w : Nat) : State :=
  { acceptCommand s (BitVec.ofNat 32 (w % 2 ^ nbits)) with agenda := [] }

end Sys2Proof.Machine
end

