-- ==== Sys2Proof/Machine/Assembler.lean ====
section
/-! DEFINITION. The assembler notation (R129 to R131): one command per line, mnemonic in lower case, operands
separated by commas, comments from `;`. It only names words; no meaning depends on it. -/

namespace Sys2Proof.Machine

/-- A token with its leading and trailing spaces removed. -/
def trimSpaces (l : List Char) : List Char := (l.dropWhile (· == ' ')).rdropWhile (· == ' ')

/-- The vector register a name stands for; `v8` and `v9` are aliases of `acc` and `tmp` (R130). -/
def regOfName (t : List Char) : Option VReg :=
  match String.ofList t with
  | "v0" => some .v0
  | "v1" => some .v1
  | "v2" => some .v2
  | "v3" => some .v3
  | "v4" => some .v4
  | "v5" => some .v5
  | "v6" => some .v6
  | "v7" => some .v7
  | "acc" => some .acc
  | "v8" => some .acc
  | "tmp" => some .tmp
  | "v9" => some .tmp
  | _ => none

/-- The source operand a name stands for (R130). -/
def srcOfName (t : List Char) : Option Src :=
  match String.ofList t with
  | "zr" => some .zr
  | "salt1" => some .salt1
  | "salt2" => some .salt2
  | "salt3" => some .salt3
  | _ => (regOfName t).map .reg

/-- The hexadecimal digits in the order of their values; the first ten are the decimal digits. -/
def digits : List Char := "0123456789abcdef".toList

/-- The number a nonempty digit string stands for in base 10 or 16, the hexadecimal letters in either case. -/
def numberOf (base : Nat) (cs : List Char) : Option Nat :=
  if cs = [] then none
  else cs.foldlM (fun n c => ((digits.take base).idxOf? c.toLower).map (n * base + ·)) 0

/-- The literal `n` of LOADP, decimal or `0x` hexadecimal (R129). -/
def literalValue (cs : List Char) : Option Nat :=
  if cs.take 2 = ['0', 'x'] then numberOf 16 (cs.drop 2) else numberOf 10 cs

/-- LOADP's count operand, `#n` with `n` in 1..15 (R129). -/
def countOfName : List Char → Option (BitVec 4)
  | '#' :: cs =>
    match literalValue cs with
    | some n => if 1 ≤ n ∧ n ≤ 15 then some (BitVec.ofNat 4 n) else none
    | none => none
  | _ => none

/-- The command, or the commands of the pseudo-instruction, that a mnemonic with its operands spells; `none`
where the checks of R126 would fault or the form does not exist (R129, R131). -/
def assembleForm (mnemonic : List Char) (operands : List (List Char)) : Option (List Instr) :=
  match String.ofList mnemonic, operands with
  | "nop", [] => some [.nop]
  | "linit", [] => some [.linit]
  | "lstep", [] => some [.lstep]
  | "hash", [] => some [.hash]
  | "zero", [d] => (regOfName d).map fun rd => [.zero rd]
  | "load", [d] => (regOfName d).map fun rd => [.load rd]
  | "lred", [d] => (regOfName d).map fun rd => [.lred rd]
  | "loadp", [d, n] => (regOfName d).bind fun rd => (countOfName n).map fun k => [.loadp rd k]
  | "comp", [d, a, b] =>
    (regOfName d).bind fun rd => (srcOfName a).bind fun x => (srcOfName b).map fun y => [.comp rd x y]
  | "aesr", [d, a, b] =>
    (regOfName d).bind fun rd => (srcOfName a).bind fun x => (srcOfName b).map fun y => [.aesr rd x y]
  | "aesrl", [d, a, b] =>
    (regOfName d).bind fun rd => (srcOfName a).bind fun x => (srcOfName b).map fun y => [.aesrl rd x y]
  | "fin", [a] => (srcOfName a).map fun x => [.fin x]
  | "extr", [a] => (srcOfName a).map fun x => [.extr x]
  | "fold", [d, a] =>
    (regOfName d).bind fun rd => (srcOfName a).map fun x => expandPseudo (.fold rd x)
  | "round", [d, a] =>
    (regOfName d).bind fun rd => (srcOfName a).map fun x => expandPseudo (.round rd x)
  | "finx", [a] => (srcOfName a).map fun x => expandPseudo (.finx x)
  | _, _ => none

/-- One line of assembler text: the commands it stands for, none for a blank line (R129). -/
def assembleLine (line : List Char) : Option (List Instr) :=
  let text := trimSpaces (line.takeWhile (· != ';'))
  let mnemonic := text.takeWhile (· != ' ')
  let rest := trimSpaces (text.dropWhile (· != ' '))
  if text = [] then some []
  else assembleForm mnemonic (if rest = [] then [] else (rest.splitOn ',').map trimSpaces)

end Sys2Proof.Machine
end

