-- ==== Sys2Proof/Safety.lean ====
section
/-! DEFINITION. The terms claims are stated in: what a command reads and when its reads are all answered, the
hash of a byte sequence written down on its own, and the invariant of the machine. -/

namespace Sys2Proof.Safety

open Sys2Proof.Machine

/-! ### Footprints and readable memory -/

/-- How many bytes from PTR on a command reads (R86). -/
def footprint (i : Instr) (s : State) : Nat :=
  match i with
  | .nop => 0
  | .zero _ => 0
  | .load _ => 16
  | .loadp _ n => if s.tailMode then 16 else n.toNat
  | .comp _ _ _ => 0
  | .aesr _ _ _ => 0
  | .aesrl _ _ _ => 0
  | .linit => 128
  | .lstep => 128
  | .lred _ => 0
  | .fin _ => 0
  | .extr _ => 0
  | .hash =>
    let len := s.len.toNat
    if s.tailMode = true ∧ len % 16 ≠ 0 then len - len % 16 + 16 else len

/-- Every byte of `[a, a+n)` is admitted by the platform (R86). -/
abbrev Readable (s : State) (a n : Nat) : Prop := ∀ i < n, memAdmit s (a + i) = true

/-- Every read of `[a, a+n)` is answered in the end, with data or a refusal, and none has side effects: the
duties of the platform and the host (R367, R87). -/
abbrev Answering (s : State) (a n : Nat) : Prop :=
  ∀ i < n, touches s .silent (a + i) 1 = false ∧ touches s .sideEffect (a + i) 1 = false

/-- The footprint of a command lies inside the address space, readable and answering: the condition under which
it cannot fault on its reads (R99). -/
abbrev Ready (i : Instr) (s : State) : Prop :=
  s.ptr.toNat + footprint i s ≤ Config.addressSpace ∧
    Readable s s.ptr.toNat (footprint i s) ∧ Answering s s.ptr.toNat (footprint i s)

/-- The input byte at position `j` from PTR, as the command reads it. -/
def inputByte (s : State) (j : Nat) : Byte := byteAt s (s.ptr.toNat + j)

/-! ### The hash of a byte sequence (R272 to R276), with no machine in it -/

/-- Block `i` of the input `b` (R13, R272). -/
def hashBlock (b : Nat → Byte) (i : Nat) : Vec := vecOfBytes fun j => b (16 * i + j)

/-- The partial block: the last `r` bytes after `total` full blocks, zero-padded (R273). -/
def hashTail (b : Nat → Byte) (total r : Nat) : Vec :=
  vecOfBytes fun j => if j < r then b (16 * total + j) else 0

/-- Lane `i` after the first `g + 1` groups of 8 blocks (R220, R223, R272). -/
def hashLane (b : Nat → Byte) (i : Nat) : Nat → Vec
  | 0 => hashBlock b i
  | g + 1 => compress (hashLane b i g) (hashBlock b (8 * (g + 1) + i))

/-- `n` blocks from block `k` on, folded into `acc` in input order (R272). -/
def hashFold (b : Nat → Byte) (acc : Vec) (k : Nat) : Nat → Vec
  | 0 => acc
  | n + 1 => hashFold b (compress acc (hashBlock b k)) (k + 1) n

/-- The accumulator before the serial blocks, for `len` input bytes (R272). -/
def hashStart (b : Nat → Byte) (len : Nat) : Vec :=
  if 128 ≤ len then laneTree fun i => hashLane b i (len / 16 / 8 - 1) else 0

/-- The accumulator before the tail (R272). -/
def hashFull (b : Nat → Byte) (len : Nat) : Vec :=
  hashFold b (hashStart b len) (len / 16 / 8 * 8) (len / 16 - len / 16 / 8 * 8)

/-- The final accumulator of HASH over `len` bytes (R272, R274). -/
def hashAcc (b : Nat → Byte) (len : Nat) : Vec :=
  if 0 < len % 16 then compress (hashFull b len) (hashTail b (len / 16) (len % 16)) else hashFull b len

/-- The serial reference fold of the source's §8 (R276). -/
def serialAcc (b : Nat → Byte) (len : Nat) : Vec :=
  let full := hashFold b 0 0 (len / 16)
  if 0 < len % 16 then compress full (hashTail b (len / 16) (len % 16)) else full

/-- TMP after a HASH that completes: the last block or partial block loaded, else as before (R274). -/
def hashTmp (b : Nat → Byte) (len : Nat) (before : Vec) : Vec :=
  if 0 < len % 16 then hashTail b (len / 16) (len % 16)
  else if len / 16 / 8 * 8 < len / 16 then hashBlock b (len / 16 - 1)
  else before

/-- The vector registers after a HASH that completes (R274). -/
def hashRegs (b : Nat → Byte) (len : Nat) (v : VRegs) : VRegs :=
  let lanes := if 128 ≤ len then setLanes v fun i => hashLane b i (len / 16 / 8 - 1) else v
  { lanes with acc := hashAcc b len, tmp := hashTmp b len v.tmp }

/-- The 64-bit output for a final accumulator (R250, R274). -/
def hashOutput (s : State) (acc : Vec) : DWord := low64 (finalizerRounds s.salt1 s.salt2 s.salt3 acc)

/-! ### Short names for the shapes of statements -/

/-- The host writes `data` at offset `o` of the register block, and the machine takes a step. -/
def hostWriteStep (s : State) (o width : Nat) (data : DWord) : Host.Outcome State Fault Refusal :=
  step { s with agenda := [.host (.write (s.gxhBase + BitVec.ofNat 64 o) width data)] }

/-- The host reads at offset `o` of the register block, and the machine takes a step. -/
def hostReadStep (s : State) (o width : Nat) : Host.Outcome State Fault Refusal :=
  step { s with agenda := [.host (.read (s.gxhBase + BitVec.ofNat 64 o) width)] }

/-- The host reads at offset `o` of the register block, then `rest` happens; the machine takes a step. -/
def hostReadThen (s : State) (o width : Nat) (rest : List Event) : Host.Outcome State Fault Refusal :=
  step { s with agenda := .host (.read (s.gxhBase + BitVec.ofNat 64 o) width) :: rest }

/-- `r` is the `width` bytes of `x` from byte `d` on, zero-extended (R41). -/
def ReadsBytes (r x : DWord) (d width : Nat) : Prop :=
  ∀ j < 8, r.extractLsb' (8 * j) 8 = if j < width then x.extractLsb' (8 * (d + j)) 8 else 0

/-- The machine is about to run the accepted command word `c` from its start, and nothing else is about to
happen. -/
def AtCommand (s : State) (c : CmdWord) : Prop :=
  s.agenda = [] ∧ (∃ j, s.seq = .exec c j) ∧ s.counters = none

/-- One vector register of `w` is `x`, the others are those of `v`. -/
def RegWritten (v w : VRegs) (rd : VReg) (x : Vec) : Prop :=
  getReg w rd = x ∧ ∀ r, r ≠ rd → getReg w r = getReg v r

/-- Byte `j` of a 64-bit register after a write of `width` bytes of `data` at byte `d` of it (R41). -/
def writtenByte (old data : DWord) (d width j : Nat) : Byte :=
  if d ≤ j ∧ j < d + width then data.extractLsb' (8 * (j - d)) 8 else old.extractLsb' (8 * j) 8

/-- RSV and every field that the opcode does not use are 0 (R126 check 2). -/
abbrev UnusedZero (o : Opcode) (f : Fields) : Prop :=
  f.rsv = 0#8 ∧ ((usedFields o).1 = false → f.rd = 0#4) ∧ ((usedFields o).2.1 = false → f.rs1 = 0#4) ∧
    ((usedFields o).2.2.1 = false → f.rs2 = 0#4) ∧ ((usedFields o).2.2.2 = false → f.n = 0#4)

/-- The operand checks: a destination names 0..9, a source names 0..9 or 12..15, LOADP's N is not 0 (R126 checks
3 and 4). -/
abbrev OperandsLegal (o : Opcode) (f : Fields) : Prop :=
  ((usedFields o).1 = true → f.rd.toNat ≤ 9) ∧
    ((usedFields o).2.1 = true → f.rs1.toNat ≠ 10 ∧ f.rs1.toNat ≠ 11) ∧
    ((usedFields o).2.2.1 = true → f.rs2.toNat ≠ 10 ∧ f.rs2.toNat ≠ 11) ∧
    (o = .loadp → f.n ≠ 0#4)

/-- Commands run one after another, each to its end. -/
def execAll : List Instr → State → Host.Outcome State Fault Refusal
  | [], s => .next s
  | i :: is, s =>
    match exec i s with
    | .next s' => execAll is s'
    | .fault r => .fault r
    | .refused r => .refused r

/-! ### The instants of a running command (R43) -/

/-- The instants that a read made now, before `rest`, may see. -/
def instants (s : State) (rest : List Event) : List Snapshot :=
  snapshot s :: (s.history ++ commandAhead { s with agenda := rest, draws := s.draws + 1 })

/-- In `n` steps from `s`, its agenda lengthened by `k` internal steps of the engine, the machine comes to `t` by
way of busy states alone, and `t` is busy too or the command has ended there by itself (R310, R311). -/
def ComesTo (s : State) (k n : Nat) (t : State) : Prop :=
  let from' : State := { s with agenda := s.agenda ++ List.replicate k .tick }
  core.run n from' = .next t ∧
    (∀ m < n, ∃ u : State, core.run m from' = .next u ∧ busy u = true) ∧
    (busy t = true ∨ t.done = true ∨ t.fault = true)

/-! ### The invariant -/

/-- Platform memory is in canonical form. -/
def MemoryCanonical (s : State) : Prop := Memory.wf s.mem = true

/-- An idle engine holds no hidden state (R36, R350). -/
def IdleIsClean (s : State) : Prop :=
  s.seq = .idle → s.counters = none ∧ s.finH = none ∧ s.raced = [] ∧ s.history = []

/-- HASH's counters hold values only while HASH runs, the values LEN gives, and the sequencer stands at a line of
its microprogram or just past the last (R35, R36, R272). -/
def CountersMatch (s : State) : Prop :=
  ∀ ct, s.counters = some ct →
    ct = hashCounters s.len.toNat ∧
      ∃ j, s.seq = .exec (encode .hash) j ∧ j ≤ (hashProgram ct).length

/-- While a command runs, LASTCMD holds its word, FAULT is clear, and only HASH is past step 0 (R55, R56, R314,
R35). -/
def RunningIsAccepted (s : State) : Prop :=
  ∀ c j, s.seq = .exec c j → s.lastCmd = c ∧ s.fault = false ∧ (s.counters = none → j = 0)

/-- A recorded fault has a cause (R300, R310). -/
def FaultHasCause (s : State) : Prop := s.fault = true → s.cause ≠ .none

/-- The invariant of the machine. -/
structure Inv (s : State) : Prop where
  memory : MemoryCanonical s
  idle : IdleIsClean s
  counters : CountersMatch s
  running : RunningIsAccepted s
  faultCause : FaultHasCause s

end Sys2Proof.Safety
end

