-- ==== Sys2Proof/Certificates/Slice0/Obligations.lean ====
section
/-! DEFINITION. What is to be proved of the machine. Every statement quantifies over all salts, all platform
memories and all platform regions, so none rests on the values that reset gives them. -/

open Sys2Proof Sys2Proof.Machine Sys2Proof.Safety

/-! ### Encoding -/

/-- Decoding the word of a well-formed command gives the command back (R121, R123). -/
def Obligations.DecodeEncodeRoundTrip : Prop :=
  ∀ i : Instr, i.wellFormed = true → decode (encode i) = .ok i

/-- A word that decodes is the word of what it decodes to, and that is well-formed (R121, R126). -/
def Obligations.DecodedWordIsItsEncoding : Prop :=
  ∀ (c : CmdWord) (i : Instr), decode c = .ok i → encode i = c ∧ i.wellFormed = true

/-- A word spells a command of a row exactly when it matches the row and passes the operand checks (R125). -/
def Obligations.DecodeMatchesRowTable : Prop :=
  ∀ (c : CmdWord) (o : Opcode),
    (∃ i, decode c = .ok i ∧ opcode i = o) ↔
      (c &&& rowMask o = rowMatch o ∧ OperandsLegal o (fieldsOf c))

/-- The worked encodings decode to the commands they are written for (R132). -/
def Obligations.WorkedEncodingsDecode : Prop :=
  decode 0x00000000#32 = .ok .nop ∧
  decode 0x00000801#32 = .ok (.zero .acc) ∧
  decode 0x00000902#32 = .ok (.load .tmp) ∧
  decode 0x00400903#32 = .ok (.loadp .tmp 4#4) ∧
  decode 0x00098804#32 = .ok (.comp .acc (.reg .acc) (.reg .tmp)) ∧
  decode 0x000D8905#32 = .ok (.aesr .tmp (.reg .acc) .salt1) ∧
  decode 0x000E9905#32 = .ok (.aesr .tmp (.reg .tmp) .salt2) ∧
  decode 0x000F9906#32 = .ok (.aesrl .tmp (.reg .tmp) .salt3) ∧
  decode 0x00000008#32 = .ok .linit ∧
  decode 0x00000009#32 = .ok .lstep ∧
  decode 0x0000080A#32 = .ok (.lred .acc) ∧
  decode 0x0000800B#32 = .ok (.fin (.reg .acc)) ∧
  decode 0x0000900C#32 = .ok (.extr (.reg .tmp)) ∧
  decode 0x00000010#32 = .ok .hash

/-- The operand map: which register each destination index names, which lane is which register, which indexes may
be a destination and a source, and what a source reads (R30, R31, R32, R33). -/
def Obligations.OperandMap : Prop :=
  (List.range 10).map (fun k => destOf (BitVec.ofNat 4 k)) =
    [some .v0, some .v1, some .v2, some .v3, some .v4, some .v5, some .v6, some .v7, some .acc, some .tmp] ∧
  (List.range 8).map laneReg = [.v0, .v1, .v2, .v3, .v4, .v5, .v6, .v7] ∧
  (∀ i < 8, (regIndex (laneReg i)).toNat = i) ∧
  (∀ k : BitVec 4, k.toNat ≤ 9 → ∃ r, regIndex r = k ∧ destOf k = some r ∧ srcOf k = some (.reg r)) ∧
  (∀ k : BitVec 4, 10 ≤ k.toNat → destOf k = none) ∧
  srcOf 10#4 = none ∧ srcOf 11#4 = none ∧ srcOf 12#4 = some .zr ∧ srcOf 13#4 = some .salt1 ∧
  srcOf 14#4 = some .salt2 ∧ srcOf 15#4 = some .salt3 ∧
  ∀ s : State, (∀ r, srcValue s (.reg r) = getReg s.v r) ∧ srcValue s .zr = 0 ∧
    srcValue s .salt1 = s.salt1 ∧ srcValue s .salt2 = s.salt2 ∧ srcValue s .salt3 = s.salt3 ∧
    [VReg.v0, .v1, .v2, .v3, .v4, .v5, .v6, .v7, .acc, .tmp].map (getReg s.v) =
      [s.v.v0, s.v.v1, s.v.v2, s.v.v3, s.v.v4, s.v.v5, s.v.v6, s.v.v7, s.v.acc, s.v.tmp]

/-- A word whose OP is 0x07, 0x0D..0x0F or 0x11..0xFF raises ILLEGAL_OPCODE before any other effect (R301). -/
def Obligations.UnassignedOpcodeFaults : Prop :=
  ∀ (s : State) (c : CmdWord), AtCommand s c →
    ((c.extractLsb' 0 8).toNat = 0x07 ∨
      (0x0D ≤ (c.extractLsb' 0 8).toNat ∧ (c.extractLsb' 0 8).toNat ≤ 0x0F) ∨
      0x11 ≤ (c.extractLsb' 0 8).toNat) →
    step s = .next (raiseFault s .illegalOpcode 0)

/-- A word with an assigned OP raises ILLEGAL_OPERAND when RSV or an unused field is nonzero, a destination or a
source is illegal, or it is LOADP with N = 0 (R302); otherwise it decodes. -/
def Obligations.IllegalOperandFaults : Prop :=
  ∀ (s : State) (c : CmdWord) (o : Opcode), AtCommand s c → opcodeOf (fieldsOf c).op = some o →
    ((¬ UnusedZero o (fieldsOf c) ∨ ¬ OperandsLegal o (fieldsOf c)) →
      step s = .next (raiseFault s .illegalOperand 0)) ∧
    (UnusedZero o (fieldsOf c) → OperandsLegal o (fieldsOf c) → ∃ i, decode c = .ok i ∧ opcode i = o)

/-- The assembler emits no illegal word (R129; the reading of a line is log entry 17). -/
def Obligations.AssemblerEmitsLegalCommands : Prop :=
  ∀ (line : List Char) (is : List Instr), assembleLine line = some is →
    ∀ i ∈ is, decode (encode i) = .ok i

/-! ### A step runs the accepted command -/

/-- With an accepted word that decodes and nothing else about to happen, a step is `exec` of the command; a word
put where the engine takes its command from is run by the very next step; an internal step of the engine on a
command other than HASH is `exec` of it too (R35, R55). With nothing about to happen an idle block keeps its state
(R322). The agenda, its ticks, and that a step with an empty agenda runs the whole command are the model's (log
entries 1, 6). -/
def Obligations.StepRunsDecodedCommand : Prop :=
  (∀ (s : State) (c : CmdWord) (i : Instr), AtCommand s c → decode c = .ok i → step s = exec i s) ∧
  (∀ (s : State) (w : Nat) (i : Instr), decodeTableWord 32 w = some i →
    step (s.withFetchWord 32 w) = exec i (s.withFetchWord 32 w)) ∧
  (∀ (s : State) (c : CmdWord) (i : Instr) (rest : List Event), s.agenda = .tick :: rest → s.seq = .exec c 0 →
    s.counters = none → decode c = .ok i → i ≠ .hash → step s = exec i { s with agenda := rest }) ∧
  ∀ s : State, s.agenda = [] → s.seq = .idle → step s = .next s

/-! ### Vector state commands -/

/-- NOP changes no register, memory or PTR; it completes (R160). -/
def Obligations.NopOnlyCompletes : Prop := ∀ s : State, exec .nop s = .next (complete s)

/-- ZERO clears its destination and nothing else (R161). -/
def Obligations.ZeroClearsItsRegister : Prop :=
  ∀ (rd : VReg) (s : State), ∃ t, exec (.zero rd) s = .next t ∧ RegWritten s.v t.v rd 0 ∧
    t = complete { s with v := t.v }

/-- LOAD puts the byte at `PTR + j` into lane byte `j` of its destination and advances PTR by 16 modulo 2^64; no
other register and no memory changes (R163, R164, R82). -/
def Obligations.LoadReadsOneBlock : Prop :=
  ∀ (rd : VReg) (s : State), Ready (.load rd) s → ∃ t, exec (.load rd) s = .next t ∧
    (∀ j < 16, laneByte (getReg t.v rd) j = byteAt s (s.ptr.toNat + j)) ∧
    (∀ r, r ≠ rd → getReg t.v r = getReg s.v r) ∧
    t.ptr.toNat = (s.ptr.toNat + 16) % 2 ^ 64 ∧
    t = complete { s with v := t.v, ptr := t.ptr }

/-- LOADP puts the byte at `PTR + j` into lane byte `j` for `j < n`, 0 into the others, and advances PTR by `n`,
in both tail modes (R166). A term with count 0, which no word decodes to, takes the fault R122 names for it (log
entry 16). -/
def Obligations.LoadpReadsPartialBlock : Prop :=
  ∀ (rd : VReg) (n : BitVec 4) (s : State),
    (n = 0#4 → exec (.loadp rd n) s = .next (raiseFault s .illegalOperand 0)) ∧
    (n ≠ 0#4 → Ready (.loadp rd n) s → ∃ t, exec (.loadp rd n) s = .next t ∧
      (∀ j < 16, laneByte (getReg t.v rd) j = if j < n.toNat then byteAt s (s.ptr.toNat + j) else 0) ∧
      (∀ r, r ≠ rd → getReg t.v r = getReg s.v r) ∧
      t.ptr.toNat = (s.ptr.toNat + n.toNat) % 2 ^ 64 ∧
      t = complete { s with v := t.v, ptr := t.ptr })

/-- Where the over-read load completes, the bounded load completes with the same vector and PTR (R167). -/
def Obligations.TailModesLoadTheSameVector : Prop :=
  ∀ (rd : VReg) (n : BitVec 4) (s : State), n ≠ 0#4 →
    Ready (.loadp rd n) { s with tailMode := true } →
    ∃ t, exec (.loadp rd n) { s with tailMode := true } = .next t ∧ t.done = true ∧
      exec (.loadp rd n) { s with tailMode := false } = .next { t with tailMode := false }

/-! ### The AES primitive -/

/-- The order ShiftRows puts the lane bytes in (R193). -/
def Obligations.ShiftRowsByteOrder : Prop :=
  ∀ (v : Vec) (i : Nat), i < 16 →
    laneByte (shiftRows v) i = laneByte v ([0, 5, 10, 15, 4, 9, 14, 3, 8, 13, 2, 7, 12, 1, 6, 11].getD i 0)

/-- The round, and the round with a fixed key or second operand, are bijections, and the round of zero is 0x63 in
every byte (R195). -/
def Obligations.RoundIsBijective : Prop :=
  Function.Bijective aesR ∧ (∀ k, Function.Bijective fun a => aesRound a k) ∧
  (∀ b, Function.Bijective fun a => aesR a ^^^ b) ∧ ∀ i < 16, laneByte (aesR 0) i = 0x63#8

/-- COMP, AESR and AESRL write `R(Op(RS1)) XOR Op(RS2)`, the sources read before the write, and nothing else
(R200, R202, R204, R12). -/
def Obligations.AesCommandsWriteTheRound : Prop :=
  ∀ (i : Instr) (rd : VReg) (a b : Src) (s : State),
    (i = .comp rd a b ∨ i = .aesr rd a b ∨ i = .aesrl rd a b) →
    ∃ t, exec i s = .next t ∧ RegWritten s.v t.v rd (aesR (srcValue s a) ^^^ srcValue s b) ∧
      t = complete { s with v := t.v }

/-- COMP, AESR and AESRL with the same operands leave the same state but for LASTCMD (R205). -/
def Obligations.AesCommandsDifferOnlyInLastcmd : Prop :=
  ∀ (rd : VReg) (a b : Src) (s : State), ∃ t : State,
    step (s.withFetchWord 32 (encode (.comp rd a b)).toNat) =
      .next { t with lastCmd := encode (.comp rd a b) } ∧
    step (s.withFetchWord 32 (encode (.aesr rd a b)).toNat) =
      .next { t with lastCmd := encode (.aesr rd a b) } ∧
    step (s.withFetchWord 32 (encode (.aesrl rd a b)).toNat) =
      .next { t with lastCmd := encode (.aesrl rd a b) }

/-! ### Lanes -/

/-- LINIT puts block `i` at PTR into lane `i`, whatever it held, and advances PTR by 128 (R220, R222). -/
def Obligations.LinitLoadsTheLanes : Prop :=
  ∀ s : State, Ready .linit s → ∃ t, exec .linit s = .next t ∧
    (∀ i < 8, ∀ j < 16, laneByte (getReg t.v (laneReg i)) j = byteAt s (s.ptr.toNat + 16 * i + j)) ∧
    t.v.acc = s.v.acc ∧ t.v.tmp = s.v.tmp ∧ t.ptr.toNat = (s.ptr.toNat + 128) % 2 ^ 64 ∧
    t = complete { s with v := t.v, ptr := t.ptr }

/-- LSTEP folds block `i` at PTR into lane `i`, each lane from its own old value, and advances PTR by 128
(R223). -/
def Obligations.LstepFoldsTheLanes : Prop :=
  ∀ s : State, Ready .lstep s → ∃ t, exec .lstep s = .next t ∧
    (∀ i < 8, getReg t.v (laneReg i) =
      aesR (getReg s.v (laneReg i)) ^^^ blockAt s (s.ptr.toNat + 16 * i)) ∧
    t.v.acc = s.v.acc ∧ t.v.tmp = s.v.tmp ∧ t.ptr.toNat = (s.ptr.toNat + 128) % 2 ^ 64 ∧
    t = complete { s with v := t.v, ptr := t.ptr }

/-- LRED writes the fixed pairwise tree of the old lanes to its destination and nothing else (R226). -/
def Obligations.LredWritesTheTree : Prop :=
  ∀ (rd : VReg) (s : State), ∃ t t01 t23 t45 t67 a b, exec (.lred rd) s = .next t ∧
    t01 = aesR s.v.v0 ^^^ s.v.v1 ∧ t23 = aesR s.v.v2 ^^^ s.v.v3 ∧
    t45 = aesR s.v.v4 ^^^ s.v.v5 ∧ t67 = aesR s.v.v6 ^^^ s.v.v7 ∧
    a = aesR t01 ^^^ t23 ∧ b = aesR t45 ^^^ t67 ∧
    RegWritten s.v t.v rd (aesR a ^^^ b) ∧ t = complete { s with v := t.v }

/-! ### Finalizer -/

/-- FIN puts the low half of the third salted round into RESULT and writes no vector register (R250, R251). -/
def Obligations.FinWritesTheResult : Prop :=
  ∀ (a : Src) (s : State), ∃ t h1 h2 h3, exec (.fin a) s = .next t ∧
    h1 = aesR (srcValue s a) ^^^ s.salt1 ∧ h2 = aesR h1 ^^^ s.salt2 ∧ h3 = aesR h2 ^^^ s.salt3 ∧
    t.result = h3.extractLsb' 0 64 ∧ t = complete { s with result := t.result }

/-- EXTR puts lane bytes 0..7 of its source into RESULT, little-endian, and writes nothing else (R253, R83). -/
def Obligations.ExtrTakesTheLowHalf : Prop :=
  ∀ (a : Src) (s : State), ∃ t, exec (.extr a) s = .next t ∧
    (∀ j < 8, t.result.extractLsb' (8 * j) 8 = laneByte (srcValue s a) j) ∧
    t = complete { s with result := t.result }

/-- For given salts the finalizer's vector is a bijection of its input, so two accumulators never give the same
`h` (R255). -/
def Obligations.FinalizerIsBijective : Prop :=
  ∀ s1 s2 s3 : Vec, Function.Bijective fun acc => finalizerRounds s1 s2 s3 acc

/-- `finx rs` leaves the RESULT that `fin rs` leaves; of the vector registers it writes TMP alone (R131). -/
def Obligations.FinxLeavesTheResultOfFin : Prop :=
  ∀ (a : Src) (s : State), ∃ t u, execAll (expandPseudo (.finx a)) s = .next t ∧ exec (.fin a) s = .next u ∧
    t = { u with v := setReg u.v .tmp (finalizerRounds s.salt1 s.salt2 s.salt3 (srcValue s a)) }

/-! ### HASH -/

/-- A HASH whose input is readable ends with the hash of its input bytes: every register as R274 lists it (R272,
R273, R274). -/
def Obligations.HashComputesTheHash : Prop :=
  ∀ s : State, Ready .hash s →
    exec .hash s = .next (complete { s with
      v := hashRegs (inputByte s) s.len.toNat s.v
      ptr := s.ptr + s.len
      result := hashOutput s (hashAcc (inputByte s) s.len.toNat) })

/-- With LEN = 0 nothing is read, ACC is 0 and RESULT is the finalized zero vector (R275, R252). -/
def Obligations.HashOfNothing : Prop :=
  ∀ s : State, s.len = 0 →
    exec .hash s = .next (complete { s with
      v := { s.v with acc := 0 }
      result := low64 (aesR (aesR (aesR 0 ^^^ s.salt1) ^^^ s.salt2) ^^^ s.salt3) })

/-- RESULT and ACC of a completing HASH depend only on the input bytes, their number and the salts: not on where
the input lies, on the tail mode or on what the registers held (R280). -/
def Obligations.HashDependsOnlyOnItsInput : Prop :=
  ∀ s t : State, Ready .hash s → Ready .hash t → s.len = t.len →
    s.salt1 = t.salt1 → s.salt2 = t.salt2 → s.salt3 = t.salt3 →
    (∀ j < s.len.toNat, inputByte s j = inputByte t j) →
    ∃ s' t', exec .hash s = .next s' ∧ exec .hash t = .next t' ∧
      s'.result = t'.result ∧ s'.v.acc = t'.v.acc ∧ s'.done = true ∧ t'.done = true

/-- Below 128 bytes HASH's accumulator is the serial fold of the input (R276). -/
def Obligations.ShortHashIsTheSerialFold : Prop :=
  ∀ s : State, Ready .hash s → s.len.toNat < 128 →
    ∃ t, exec .hash s = .next t ∧ t.v.acc = serialAcc (inputByte s) s.len.toNat

/-- Zero-padding the last partial block leaves ACC and RESULT as they are where no group of 8 blocks becomes
complete (R285). -/
def Obligations.ZeroPaddingKeepsTheHash : Prop :=
  ∀ s t : State, Ready .hash s → Ready .hash t → 0 < s.len.toNat % 16 →
    (s.len.toNat / 16 + 1) % 8 ≠ 0 → t.len.toNat = 16 * (s.len.toNat / 16 + 1) →
    s.salt1 = t.salt1 → s.salt2 = t.salt2 → s.salt3 = t.salt3 →
    (∀ j < s.len.toNat, inputByte t j = inputByte s j) →
    (∀ j, s.len.toNat ≤ j → j < t.len.toNat → inputByte t j = 0) →
    ∃ s' t', exec .hash s = .next s' ∧ exec .hash t = .next t' ∧
      s'.v.acc = t'.v.acc ∧ s'.result = t'.result

/-- Changing one input byte changes the final ACC (R278). -/
def Obligations.EveryInputByteReachesAcc : Prop :=
  ∀ (s t : State) (k : Nat), Ready .hash s → Ready .hash t → s.len = t.len → k < s.len.toNat →
    inputByte s k ≠ inputByte t k →
    (∀ j < s.len.toNat, j ≠ k → inputByte s j = inputByte t j) →
    ∃ s' t', exec .hash s = .next s' ∧ exec .hash t = .next t' ∧ s'.v.acc ≠ t'.v.acc

/-- A HASH whose footprint has a refused byte ends at the first line whose read is refused, with ACCESS_FAULT at
that line's address: the lines before it keep their effects, it writes nothing, RESULT and LEN are as before
(R283, R304, R312). -/
def Obligations.HashFaultsAtItsFirstRefusedLine : Prop :=
  ∀ s : State, s.ptr.toNat + footprint .hash s ≤ Config.addressSpace →
    Answering s s.ptr.toNat (footprint .hash s) → ¬ Readable s s.ptr.toNat (footprint .hash s) →
    ∃ before op after u fa, hashProgram (hashCounters s.len.toNat) = before ++ op :: after ∧
      runMicro before { s with counters := some (hashCounters s.len.toNat) } = .done u ∧
      microEffect op u = .fault u .accessFault fa ∧
      exec .hash s = .next (raiseFault u .accessFault fa) ∧ u.result = s.result ∧ u.len = s.len

/-- The engine's single steps through HASH, its range check, the lines of its microprogram and its completion, end
where running it at once ends (R35, R272, R283, R311). The agenda and its ticks are the model's (log entries 6,
20). -/
def Obligations.HashStepsMatchTheWholeRun : Prop :=
  ∀ s : State, s.agenda = [] → s.seq = .exec (encode .hash) 0 → s.counters = none →
    core.run ((hashProgram (hashCounters s.len.toNat)).length + 2)
      { s with agenda := List.replicate ((hashProgram (hashCounters s.len.toNat)).length + 2) .tick } =
      exec .hash s

/-- HASH has at most `total div 8 + 18` steps (R282). -/
def Obligations.HashStepBound : Prop :=
  ∀ len : Nat, (hashProgram (hashCounters len)).length ≤ len / 16 / 8 + 18

/-! ### Faults -/

/-- A footprint past the top of the address space raises ADDR_WRAP at PTR, with no other effect (R303, R90). -/
def Obligations.FootprintPastTheTopFaults : Prop :=
  ∀ (i : Instr) (s : State), i.wellFormed = true → Config.addressSpace < s.ptr.toNat + footprint i s →
    exec i s = .next (raiseFault s .addrWrap s.ptr)

/-- A refused byte in the footprint of LOAD or LOADP raises ACCESS_FAULT at PTR, with no other effect (R163, R166,
R304). -/
def Obligations.RefusedLoadFaults : Prop :=
  ∀ (i : Instr) (rd : VReg) (n : BitVec 4) (s : State), (i = .load rd ∨ (i = .loadp rd n ∧ n ≠ 0#4)) →
    s.ptr.toNat + footprint i s ≤ Config.addressSpace → Answering s s.ptr.toNat (footprint i s) →
    ¬ Readable s s.ptr.toNat (footprint i s) →
    exec i s = .next (raiseFault s .accessFault s.ptr)

/-- A refused byte in the footprint of LINIT or LSTEP raises ACCESS_FAULT at the start of the lowest-numbered block
that holds one, with no other effect (R220, R223, R304). -/
def Obligations.RefusedLaneBlockFaults : Prop :=
  ∀ (i : Instr) (s : State), (i = .linit ∨ i = .lstep) →
    s.ptr.toNat + 128 ≤ Config.addressSpace → Answering s s.ptr.toNat 128 → ¬ Readable s s.ptr.toNat 128 →
    ∃ b, b < 8 ∧ ¬ Readable s (s.ptr.toNat + 16 * b) 16 ∧
      (∀ b' < b, Readable s (s.ptr.toNat + 16 * b') 16) ∧
      exec i s = .next (raiseFault s .accessFault (s.ptr + BitVec.ofNat 64 (16 * b)))

/-- Taking a fault writes CAUSE and FAULT_ADDR, sets FAULT, clears BUSY, goes idle and asserts the enabled interrupt;
completion does the same with DONE and no cause; neither writes anything else (R310, R311). Of the model's own
fields `raced` and `history` (log entries 7, 8) it says nothing. -/
def Obligations.FaultAndCompletionEntry : Prop :=
  (∀ (s : State) (c : Cause) (a : DWord),
    (raiseFault s c a).cause = c ∧ (raiseFault s c a).faultAddr = a ∧ (raiseFault s c a).fault = true ∧
    busy (raiseFault s c a) = false ∧ (raiseFault s c a).seq = .idle ∧
    (s.ieFault = true → irqLine (raiseFault s c a) = true) ∧
    { raiseFault s c a with raced := s.raced, history := s.history } = { s with
      cause := c, faultAddr := a, fault := true, seq := .idle, counters := none, finH := none }) ∧
  ∀ s : State, (complete s).done = true ∧ busy (complete s) = false ∧ (complete s).seq = .idle ∧
    (s.ieDone = true → irqLine (complete s) = true) ∧
    { complete s with raced := s.raced, history := s.history } = { s with
      done := true, seq := .idle, counters := none, finH := none }

/-- While FAULT is set and the host clears nothing and resets nothing, CAUSE and FAULT_ADDR keep their values: no
second fault can be recorded (R314). -/
def Obligations.FaultsDoNotNest : Prop :=
  ∀ s t : State, Inv s → s.fault = true → step s = .next t →
    (t.cause = s.cause ∧ t.faultAddr = s.faultAddr) ∨
      ∃ s', s'.agenda = s.agenda.tail ∧ t = resetBlock s'

/-- A command whose read is never answered does not end: LOAD, LOADP, LINIT and LSTEP leave the state as it is, HASH
stays at the line that waits, BUSY, and every further step leaves it there (R367; a footprint with refused bytes
too is log entry 10, one with side effects log entry 11). -/
def Obligations.UnansweredReadKeepsTheBlockBusy : Prop :=
  (∀ (i : Instr) (rd : VReg) (n : BitVec 4) (s : State),
    (i = .load rd ∨ (i = .loadp rd n ∧ n ≠ 0#4) ∨ i = .linit ∨ i = .lstep) →
    s.ptr.toNat + footprint i s ≤ Config.addressSpace →
    (∀ k < footprint i s, touches s .sideEffect (s.ptr.toNat + k) 1 = false) →
    (∃ k < footprint i s, touches s .silent (s.ptr.toNat + k) 1 = true) →
    exec i s = .next s) ∧
  ∀ (s : State) (c : CmdWord), s.agenda = [] → s.seq = .exec c 0 →
    s.ptr.toNat + footprint .hash s ≤ Config.addressSpace →
    Readable s s.ptr.toNat (footprint .hash s) →
    (∀ k < footprint .hash s, touches s .sideEffect (s.ptr.toNat + k) 1 = false) →
    (∃ k < footprint .hash s, touches s .silent (s.ptr.toNat + k) 1 = true) →
    ∃ t j, exec .hash s = .next t ∧ t.seq = .exec c j ∧ t.done = s.done ∧ t.fault = s.fault ∧
      t.result = s.result ∧ step t = .next t

/-- A command is refused exactly when its footprint, inside the address space, covers a location with read side
effects (R87, decision D30; its place among the checks is log entry 11); no command is refused or stopped for any other
reason. -/
def Obligations.OnlySideEffectFootprintsAreRefused : Prop :=
  ∀ (i : Instr) (s : State), i.wellFormed = true →
    ((∃ t, exec i s = .next t) ∨ exec i s = .refused .readSideEffect) ∧
    (exec i s = .refused .readSideEffect ↔
      s.ptr.toNat + footprint i s ≤ Config.addressSpace ∧
        ∃ k < footprint i s, touches s .sideEffect (s.ptr.toNat + k) 1 = true)

/-! ### What no command changes -/

/-- No command writes memory, LEN, CTRL, LASTCMD, CMDERR, the salts or the platform (R34, R53, R58, R80): every byte
of memory reads as before. -/
def Obligations.CommandsNeverWriteMemory : Prop :=
  ∀ (i : Instr) (s t : State), exec i s = .next t →
    (∀ a, Memory.read t.mem a = Memory.read s.mem a) ∧ t.mem = s.mem ∧ t.len = s.len ∧
    t.tailMode = s.tailMode ∧ t.ieDone = s.ieDone ∧ t.ieFault = s.ieFault ∧ t.lastCmd = s.lastCmd ∧
    t.cmdErr = s.cmdErr ∧ t.salt1 = s.salt1 ∧ t.salt2 = s.salt2 ∧ t.salt3 = s.salt3 ∧
    t.gxhBase = s.gxhBase ∧ t.regions = s.regions ∧ t.agenda = s.agenda ∧ t.readData = s.readData

/-- The salts keep their values in every step, resets included (R33, R350). That `GXH_BASE` and the regions of
platform memory keep theirs is the model's choice (log entries 3, 5, 22). -/
def Obligations.SaltsAreConstant : Prop :=
  ∀ s t : State, step s = .next t → t.salt1 = s.salt1 ∧ t.salt2 = s.salt2 ∧ t.salt3 = s.salt3 ∧
    t.gxhBase = s.gxhBase ∧ t.regions = s.regions

/-! ### The register block -/

/-- A CMD write while not busy and with FAULT clear is accepted: LASTCMD, BUSY, the sequencer at step 0. Any other
CMD write sets CMDERR and does nothing else. CMD reads 0 (R55). Of the model's own fields `raced`, `history` and
`draws` (log entries 7 to 9) it says nothing. -/
def Obligations.CmdAcceptance : Prop :=
  ∀ (s : State) (w : DWord) (width : Nat), (width = 4 ∨ width = 8) →
    (busy s = false → s.fault = false → ∃ t, hostWriteStep s 0x40 width w = .next t ∧
      t.lastCmd = w.extractLsb' 0 32 ∧ t.seq = .exec (w.extractLsb' 0 32) 0 ∧ busy t = true ∧
      { t with raced := s.raced, history := s.history, draws := s.draws } = { s with
        agenda := [], lastCmd := t.lastCmd, seq := t.seq, counters := none, finH := none }) ∧
    (busy s = true ∨ s.fault = true →
      hostWriteStep s 0x40 width w = .next { s with agenda := [], cmdErr := true }) ∧
    ∃ t, hostReadStep s 0x40 width = .next t ∧ t.readData = 0

/-- While BUSY a write to CTRL without SRST, PTR, LEN, CMD or the VREG window only sets CMDERR, with SRST it resets,
and STATUS takes its write (R42; the reserved half of CTRL and the VREG slots 10..15 are log entries 13, 14). Busy or
idle, the read-only registers and the reserved offsets ignore their writes (R40, R41), and so do the reserved halves
of STATUS and CMD and, while idle, of CTRL (log entry 12). -/
def Obligations.BusyWritesAreRejected : Prop :=
  ∀ (s : State) (o width : Nat) (w : DWord), (width = 4 ∨ width = 8) → o % width = 0 →
    (busy s = true →
      ((0x08 ≤ o ∧ o < 0x10 ∧ (o < 0x0C → w.getLsbD 3 = false)) ∨ (0x28 ≤ o ∧ o < 0x38) ∨
        (0x40 ≤ o ∧ o < 0x44) ∨ (0x100 ≤ o ∧ o < 0x200)) →
      hostWriteStep s o width w = .next { s with agenda := [], cmdErr := true }) ∧
    (busy s = true → o = 0x08 → w.getLsbD 3 = true →
      hostWriteStep s o width w = .next (resetBlock { s with agenda := [] })) ∧
    (busy s = true → o = 0x10 →
      hostWriteStep s o width w = .next (clearStatus { s with agenda := [] } w)) ∧
    ((o < 0x08 ∨ (0x18 ≤ o ∧ o < 0x28) ∨ (0x38 ≤ o ∧ o < 0x40) ∨ (0x48 ≤ o ∧ o < 0x100) ∨
        o = 0x14 ∨ o = 0x44 ∨ (busy s = false ∧ o = 0x0C)) →
      hostWriteStep s o width w = .next { s with agenda := [] })

/-- A write to STATUS clears each of DONE, FAULT and CMDERR whose bit is 1 in the written value and leaves everything
else, CAUSE and FAULT_ADDR included (R48, R313). -/
def Obligations.StatusWriteOneToClear : Prop :=
  ∀ (s : State) (w : DWord) (width : Nat), (width = 4 ∨ width = 8) →
    hostWriteStep s 0x10 width w = .next { s with
      agenda := []
      done := s.done && !w.getLsbD 1
      fault := s.fault && !w.getLsbD 2
      cmdErr := s.cmdErr && !w.getLsbD 3 }

/-- STATUS reads BUSY, DONE, FAULT, CMDERR and the interrupt level in bits 0 to 4, and 0 above (R47, R49). -/
def Obligations.StatusReadsItsBits : Prop :=
  ∀ s : State, ∃ t, hostReadStep s 0x10 8 = .next t ∧
    t.readData.getLsbD 0 = busy s ∧ t.readData.getLsbD 1 = s.done ∧ t.readData.getLsbD 2 = s.fault ∧
    t.readData.getLsbD 3 = s.cmdErr ∧
    t.readData.getLsbD 4 = ((s.done && s.ieDone) || (s.fault && s.ieFault)) ∧
    ∀ k, 5 ≤ k → t.readData.getLsbD k = false

/-- A CTRL write without SRST while idle sets the three RW fields, and CTRL then reads just them (R45). -/
def Obligations.CtrlWriteThenRead : Prop :=
  ∀ (s : State) (w : DWord) (width : Nat), (width = 4 ∨ width = 8) → busy s = false →
    w.getLsbD 3 = false →
    ∃ t u, hostWriteStep s 0x08 width w = .next t ∧
      t = { s with
        agenda := [], tailMode := w.getLsbD 0, ieDone := w.getLsbD 1, ieFault := w.getLsbD 2 } ∧
      hostReadStep t 0x08 8 = .next u ∧ u.readData = w &&& 7#64

/-- A CTRL write with SRST = 1, busy or not, and the platform's reset input both reset the block: every register at its
reset value, idle, interrupt deasserted, a running command gone without DONE or FAULT (R46, R350, R351). That
platform memory keeps its contents is log entry 22. -/
def Obligations.SoftAndHardResetAgree : Prop :=
  ∀ (s : State) (w : DWord) (width : Nat), (width = 4 ∨ width = 8) → w.getLsbD 3 = true →
    ∃ t, hostWriteStep s 0x08 width w = .next t ∧ step { s with agenda := [.hardReset] } = .next t ∧
      (∀ r, getReg t.v r = 0) ∧ t.ptr = 0 ∧ t.len = 0 ∧ t.result = 0 ∧ ctrlWord t = 0 ∧
      statusWord t = 0 ∧ t.cause = .none ∧ t.faultAddr = 0 ∧ t.lastCmd = 0 ∧ t.seq = .idle ∧
      t.counters = none ∧ t.finH = none ∧ irqLine t = false ∧ t.mem = s.mem

/-- The reset state has the values R351 lists; the free salts and the platform are not among them. -/
def Obligations.ResetValues : Prop :=
  (∀ r, getReg State.reset.v r = 0) ∧ ctrlWord State.reset = 0 ∧ statusWord State.reset = 0 ∧
  State.reset.cause = .none ∧ State.reset.faultAddr = 0 ∧ State.reset.ptr = 0 ∧ State.reset.len = 0 ∧
  State.reset.result = 0 ∧ State.reset.lastCmd = 0 ∧ State.reset.seq = .idle ∧
  State.reset.counters = none ∧ State.reset.finH = none ∧ irqLine State.reset = false

/-- What a 4- or 8-byte read of each register and of each reserved offset returns while idle: the bytes it
addresses (R40, R41, R44, R45, R50 to R56). Where the value read appears, and the counted draw, are the model's (log
entry 9). -/
def Obligations.RegisterReadsWhileIdle : Prop :=
  ∀ (s : State) (o d width : Nat) (v : DWord), busy s = false → (width = 4 ∨ width = 8) → d % width = 0 →
    d + width ≤ 8 →
    ((o, v) ∈ [(0x000, 0x0000_0007_4758_4831#64), (0x008, ctrlWord s), (0x010, statusWord s),
        (0x018, (causeCode s.cause).setWidth 64), (0x020, s.faultAddr), (0x028, s.ptr), (0x030, s.len),
        (0x038, s.result), (0x040, 0#64), (0x048, s.lastCmd.setWidth 64)] ∨
      (0x050 ≤ o ∧ o < 0x100 ∧ o % 8 = 0 ∧ v = 0)) →
    ∃ t, hostReadStep s (o + d) width = .next t ∧ ReadsBytes t.readData v d width ∧
      t = { s with agenda := [], readData := t.readData, draws := s.draws + 1 }

/-- A 4- or 8-byte write to PTR or LEN while idle replaces exactly the bytes it addresses (R41, R52, R53). -/
def Obligations.PointerAndLengthWrites : Prop :=
  ∀ (s : State) (d width : Nat) (w : DWord), busy s = false → (width = 4 ∨ width = 8) → d % width = 0 →
    d + width ≤ 8 →
    (∃ t, hostWriteStep s (0x28 + d) width w = .next t ∧
      (∀ j < 8, t.ptr.extractLsb' (8 * j) 8 = writtenByte s.ptr w d width j) ∧
      t = { s with agenda := [], ptr := t.ptr }) ∧
    ∃ t, hostWriteStep s (0x30 + d) width w = .next t ∧
      (∀ j < 8, t.len.extractLsb' (8 * j) 8 = writtenByte s.len w d width j) ∧
      t = { s with agenda := [], len := t.len }

/-- A VREG write while idle replaces the addressed bytes of registers 0..9 and is ignored for the indexes above
(R57). -/
def Obligations.VregWindowWrites : Prop :=
  ∀ (s : State) (k d width : Nat) (w : DWord), busy s = false → (width = 4 ∨ width = 8) → d % width = 0 →
    d + width ≤ 16 → k < 16 →
    (∀ r, (regIndex r).toNat = k → ∃ t, hostWriteStep s (0x100 + 16 * k + d) width w = .next t ∧
      (∀ j < 16, laneByte (getReg t.v r) j =
        if d ≤ j ∧ j < d + width then w.extractLsb' (8 * (j - d)) 8 else laneByte (getReg s.v r) j) ∧
      (∀ q, q ≠ r → getReg t.v q = getReg s.v q) ∧ t = { s with agenda := [], v := t.v }) ∧
    (10 ≤ k → hostWriteStep s (0x100 + 16 * k + d) width w = .next { s with agenda := [] })

/-- A VREG read while idle returns the addressed bytes of the register, zero for 10..12, the salt for 13..15
(R57). Where the value read appears, and the counted draw, are the model's (log entry 9). -/
def Obligations.VregWindowReads : Prop :=
  ∀ (s : State) (k d width : Nat), busy s = false → (width = 4 ∨ width = 8) → d % width = 0 →
    d + width ≤ 16 → k < 16 →
    ∃ t x, hostReadStep s (0x100 + 16 * k + d) width = .next t ∧
      (∀ r, (regIndex r).toNat = k → x = getReg s.v r) ∧
      ((k = 10 ∨ k = 11 ∨ k = 12) → x = 0) ∧ (k = 13 → x = s.salt1) ∧ (k = 14 → x = s.salt2) ∧
      (k = 15 → x = s.salt3) ∧
      (∀ j < 8, t.readData.extractLsb' (8 * j) 8 = if j < width then laneByte x (d + j) else 0) ∧
      t = { s with agenda := [], readData := t.readData, draws := s.draws + 1 }

/-- A 4- or 8-byte read while BUSY of PTR, RESULT or a vector register returns its bytes as they are at some instant
of the running command, behind or ahead, whatever happens next; every other register, LASTCMD and the fixed VREG slots
among them, reads its current value, which the command does not change (R43). The instants ahead are those, and all
those, that the machine comes to while the command runs; the instants behind are those it came through. It holds
whatever the free draw is; where the value appears, the counted draw, and that the agenda is all that will happen are
the model's (log entries 6, 8, 9). -/
def Obligations.BusyReadsDrawAnInstant : Prop :=
  (∀ (s : State) (rest : List Event) (d width : Nat), busy s = true → (width = 4 ∨ width = 8) →
    d % width = 0 → d + width ≤ 8 →
    (∃ t sn, hostReadThen s (0x28 + d) width rest = .next t ∧ sn ∈ instants s rest ∧
      ReadsBytes t.readData sn.ptr d width ∧
      t = { s with agenda := rest, readData := t.readData, draws := s.draws + 1 }) ∧
    (∃ t sn, hostReadThen s (0x38 + d) width rest = .next t ∧ sn ∈ instants s rest ∧
      ReadsBytes t.readData sn.result d width ∧
      t = { s with agenda := rest, readData := t.readData, draws := s.draws + 1 }) ∧
    (∀ k h, k < 16 → h < 2 → ∃ t sn x, hostReadThen s (0x100 + 16 * k + 8 * h + d) width rest = .next t ∧
      sn ∈ instants s rest ∧ (∀ r, (regIndex r).toNat = k → x = getReg sn.v r) ∧
      ((k = 10 ∨ k = 11 ∨ k = 12) → x = 0) ∧ (k = 13 → x = s.salt1) ∧ (k = 14 → x = s.salt2) ∧
      (k = 15 → x = s.salt3) ∧ ReadsBytes t.readData (x.extractLsb' (64 * h) 64) d width ∧
      t = { s with agenda := rest, readData := t.readData, draws := s.draws + 1 }) ∧
    ∀ o v, (o, v) ∈ [(0x00, 0x0000_0007_4758_4831#64), (0x08, ctrlWord s), (0x10, statusWord s),
        (0x18, (causeCode s.cause).setWidth 64), (0x20, s.faultAddr), (0x30, s.len), (0x40, 0#64),
        (0x48, s.lastCmd.setWidth 64)] →
      ∃ t, hostReadThen s (o + d) width rest = .next t ∧ ReadsBytes t.readData v d width ∧
        t = { s with agenda := rest, readData := t.readData, draws := s.draws + 1 }) ∧
  (∀ (s : State) (sn : Snapshot), Inv s → busy s = true → sn ∈ commandAhead s →
    ∃ k n t, ComesTo s k n t ∧ snapshot t = sn) ∧
  (∀ (s t : State) (k n : Nat), Inv s → busy s = true → ComesTo s k n t →
    snapshot t = snapshot s ∨ snapshot t ∈ commandAhead s) ∧
  ∀ s t : State, busy s = true → step s = .next t → busy t = true →
    (∀ sn ∈ t.history, sn ∈ s.history ∨ sn = snapshot s ∨ sn ∈ commandAhead s) ∧
    ∀ sn ∈ snapshot s :: s.history, sn ∈ snapshot t :: t.history

/-- A host access of another width, misaligned, or outside the block is refused (R41, decision D30; judged by the
offset, log entry 5). -/
def Obligations.UnsupportedAccessesAreRefused : Prop :=
  ∀ (s : State) (o width : Nat) (w : DWord), o < 2 ^ 64 →
    ((width ≠ 4 ∧ width ≠ 8) ∨ o % width ≠ 0 ∨ 0x200 < o + width) →
    (∃ r, hostWriteStep s o width w = .refused r ∧ r ≠ .readSideEffect) ∧
    ∃ r, hostReadStep s o width = .refused r ∧ r ≠ .readSideEffect

/-- In the same cycle as the engine's step: a soft reset wins, a command that ends there leaves DONE or FAULT set
whatever the host clears, and a CMD write is turned away (R307, R48; the order within the cycle is log entry 15). -/
def Obligations.SameCycleEvents : Prop :=
  ∀ (s : State) (w : DWord), busy s = true →
    (w.getLsbD 3 = true →
      step { s with agenda := [.sameCycle (.write (s.gxhBase + 0x08#64) 8 w)] } =
        .next (resetBlock { s with agenda := [] })) ∧
    (∀ t, step { s with agenda := [.sameCycle (.write (s.gxhBase + 0x10#64) 8 w)] } = .next t →
      busy t = false → t.done = true ∨ t.fault = true) ∧
    (∀ t, step { s with agenda := [.sameCycle (.write (s.gxhBase + 0x40#64) 8 w)] } = .next t →
      t.cmdErr = true ∧ t.lastCmd = s.lastCmd)

/-- A byte another agent writes while a command runs reads as its value before or after the write, each other byte
as memory holds it; a byte written while idle reads as written (R93, R87). It holds whatever the free draw is (log
entries 7, 23). -/
def Obligations.RacedByteIsOldOrNew : Prop :=
  ∀ (s : State) (a : DWord) (x : Byte), MemoryCanonical s → s.raced = [] →
    ∃ t, step { s with agenda := [.memWrite a x] } = .next t ∧
      (byteAt t a.toNat = Memory.read s.mem a.toNat ∨ byteAt t a.toNat = x) ∧
      (busy s = false → byteAt t a.toNat = x) ∧
      ∀ b, b ≠ a.toNat → byteAt t b = Memory.read s.mem b

/-! ### The invariant -/

/-- Every step keeps the invariant, from every state that has it. -/
def Obligations.StepKeepsTheInvariant : Prop :=
  ∀ s t : State, Inv s → step s = .next t → Inv t

/-- The reset state has the invariant. -/
def Obligations.ResetHasTheInvariant : Prop := Inv State.reset
end

