-- ==== Sys2Proof/Laws/Memory.lean ====
section
/-! SUPPORT. Platform memory: read after write, the canonical form kept by every write, and equal reads make
equal memories. -/

namespace Sys2Proof.Machine

theorem Memory.wf_iff (m : Memory) :
    Memory.wf m = true ↔
      m.Pairwise (fun c d => c.1 < d.1) ∧ ∀ c ∈ m, c.1 < Config.addressSpace ∧ c.2 ≠ unlistedByte := by
  simp [Memory.wf, List.all_eq_true]

theorem Memory.wf_nil : Memory.wf [] = true := rfl

/-- Reset's memory is in canonical form. -/
theorem reset_memory_wf : Memory.wf State.reset.mem = true := rfl

theorem Memory.wf_tail {c : Host.Cell} {m : Memory} (h : Memory.wf (c :: m) = true) :
    Memory.wf m = true := by
  rw [Memory.wf_iff] at *
  exact ⟨(List.pairwise_cons.mp h.1).2, fun d hd => h.2 d (List.mem_cons_of_mem _ hd)⟩

/-- Every address a write leaves listed was listed before or is the address written. -/
theorem Memory.mem_write {m : Memory} {a : Nat} {x : Byte} {c : Host.Cell} (h : c ∈ Memory.write m a x) :
    c ∈ m ∨ (c = (a, x) ∧ x ≠ unlistedByte) := by
  induction m with
  | nil =>
    by_cases hx : x = unlistedByte <;> simp [Memory.write, hx] at h
    exact .inr ⟨h, hx⟩
  | cons d m ih =>
    obtain ⟨k, b⟩ := d
    by_cases hx : x = unlistedByte <;> simp only [Memory.write] at h <;> split_ifs at h <;>
      simp only [List.mem_cons] at h ⊢ <;> tauto

/-- Every write keeps the canonical form. -/
theorem Memory.write_wf {m : Memory} {a : Nat} {x : Byte} (hm : Memory.wf m = true)
    (ha : a < Config.addressSpace) : Memory.wf (Memory.write m a x) = true := by
  rw [Memory.wf_iff]
  refine ⟨?_, fun c hc => ?_⟩
  · induction m with
    | nil => by_cases hx : x = unlistedByte <;> simp [Memory.write, hx]
    | cons d m ih =>
      obtain ⟨k, b⟩ := d
      have hp := ((Memory.wf_iff _).mp hm).1
      have ht := ih (Memory.wf_tail hm)
      rw [List.pairwise_cons] at hp
      simp only [Memory.write]
      split_ifs with h1 h2 h3 h4
      · exact List.pairwise_cons.mpr hp
      · refine List.pairwise_cons.mpr ⟨fun c hc => ?_, List.pairwise_cons.mpr hp⟩
        rcases List.mem_cons.mp hc with rfl | hc
        · exact h1
        · exact lt_trans h1 (hp.1 c hc)
      · exact hp.2
      · subst h3
        exact List.pairwise_cons.mpr hp
      · refine List.pairwise_cons.mpr ⟨fun c hc => ?_, ht⟩
        rcases Memory.mem_write hc with hc | ⟨rfl, _⟩
        · exact hp.1 c hc
        · exact lt_of_le_of_ne (not_lt.mp h1) (Ne.symm h3)
  · rcases Memory.mem_write hc with hc | ⟨rfl, hx⟩
    · exact ((Memory.wf_iff _).mp hm).2 c hc
    · exact ⟨ha, hx⟩

theorem Memory.read_of_lt {m : Memory} {a : Nat} (h : ∀ c ∈ m, a < c.1) :
    Memory.read m a = unlistedByte := by
  induction m with
  | nil => rfl
  | cons d m ih =>
    have hd := h d (List.mem_cons_self ..)
    rw [Memory.read, if_neg (by omega), ih fun c hc => h c (List.mem_cons_of_mem _ hc)]

theorem Memory.read_write_same {m : Memory} {a : Nat} {x : Byte} (hm : Memory.wf m = true) :
    Memory.read (Memory.write m a x) a = x := by
  induction m with
  | nil => by_cases hx : x = unlistedByte <;> simp [Memory.write, Memory.read, hx]
  | cons d m ih =>
    obtain ⟨k, b⟩ := d
    have hp := List.pairwise_cons.mp ((Memory.wf_iff _).mp hm).1
    simp only [Memory.write]
    split_ifs with h1 h2 h3 h4
    · rw [h2]
      refine Memory.read_of_lt fun c hc => ?_
      rcases List.mem_cons.mp hc with rfl | hc
      · exact h1
      · exact lt_trans h1 (hp.1 c hc)
    · simp [Memory.read]
    · rw [h4]
      exact Memory.read_of_lt fun c hc => by
        have := hp.1 c hc
        simp only at this
        omega
    · simp [Memory.read]
    · rw [Memory.read, if_neg (Ne.symm h3), ih (Memory.wf_tail hm)]

theorem Memory.read_write_other {m : Memory} {a b : Nat} {x : Byte} (h : b ≠ a) :
    Memory.read (Memory.write m a x) b = Memory.read m b := by
  induction m with
  | nil => by_cases hx : x = unlistedByte <;> simp [Memory.write, Memory.read, hx, Ne.symm h]
  | cons d m ih =>
    obtain ⟨k, y⟩ := d
    simp only [Memory.write]
    split_ifs with h1 h2 h3 h4
    · rfl
    · simp [Memory.read, Ne.symm h]
    · subst h3
      simp [Memory.read, Ne.symm h]
    · subst h3
      simp [Memory.read, Ne.symm h]
    · simp only [Memory.read, ih]

end Sys2Proof.Machine
end

