-- ==== Sys2Proof/Laws/Registers.lean ====
section
/-! SUPPORT. Reading after writing: vector registers, the lanes together, BUSY. -/

namespace Sys2Proof.Machine

@[simp] theorem getReg_setReg_same (v : VRegs) (k : VReg) (x : Vec) : getReg (setReg v k x) k = x := by
  cases k <;> rfl

theorem getReg_setReg_other (v : VRegs) {k r : VReg} (x : Vec) (h : r ≠ k) :
    getReg (setReg v k x) r = getReg v r := by
  cases k <;> cases r <;> first | rfl | exact absurd rfl h

theorem getReg_setReg (v : VRegs) (k r : VReg) (x : Vec) :
    getReg (setReg v k x) r = if r = k then x else getReg v r := by
  by_cases h : r = k
  · subst h; simp
  · rw [if_neg h, getReg_setReg_other v x h]

/-- Lane `i` holds what it was given when the lanes are written together (R220, R223). -/
theorem getReg_setLanes_lane (v : VRegs) (x : Nat → Vec) {i : Nat} (h : i < 8) :
    getReg (setLanes v x) (laneReg i) = x i := by
  interval_cases i <;> rfl

@[simp] theorem setLanes_acc (v : VRegs) (x : Nat → Vec) : (setLanes v x).acc = v.acc := rfl

@[simp] theorem setLanes_tmp (v : VRegs) (x : Nat → Vec) : (setLanes v x).tmp = v.tmp := rfl

/-- Two register files that read alike are the same. -/
theorem vregs_ext (v w : VRegs) (h : ∀ r, getReg v r = getReg w r) : v = w := by
  cases v
  cases w
  exact VRegs.mk.injEq .. ▸
    ⟨h .v0, h .v1, h .v2, h .v3, h .v4, h .v5, h .v6, h .v7, h .acc, h .tmp⟩

theorem busy_eq_false_iff (s : State) : busy s = false ↔ s.seq = .idle := by
  unfold busy
  cases s.seq <;> simp

theorem busy_eq_true_iff (s : State) : busy s = true ↔ ∃ c j, s.seq = .exec c j := by
  unfold busy
  cases s.seq <;> simp

end Sys2Proof.Machine
end

