-- ==== Sys2Proof/Laws/State.lean ====
section
/-! SUPPORT. One lemma per field per update of State, true by rfl, so that no proof unfolds an update. -/

namespace Sys2Proof.Machine

@[simp] theorem toIdle_v (s : State) : (toIdle s).v = s.v := rfl
@[simp] theorem toIdle_ptr (s : State) : (toIdle s).ptr = s.ptr := rfl
@[simp] theorem toIdle_len (s : State) : (toIdle s).len = s.len := rfl
@[simp] theorem toIdle_result (s : State) : (toIdle s).result = s.result := rfl
@[simp] theorem toIdle_tailMode (s : State) : (toIdle s).tailMode = s.tailMode := rfl
@[simp] theorem toIdle_ieDone (s : State) : (toIdle s).ieDone = s.ieDone := rfl
@[simp] theorem toIdle_ieFault (s : State) : (toIdle s).ieFault = s.ieFault := rfl
@[simp] theorem toIdle_done (s : State) : (toIdle s).done = s.done := rfl
@[simp] theorem toIdle_fault (s : State) : (toIdle s).fault = s.fault := rfl
@[simp] theorem toIdle_cmdErr (s : State) : (toIdle s).cmdErr = s.cmdErr := rfl
@[simp] theorem toIdle_cause (s : State) : (toIdle s).cause = s.cause := rfl
@[simp] theorem toIdle_faultAddr (s : State) : (toIdle s).faultAddr = s.faultAddr := rfl
@[simp] theorem toIdle_lastCmd (s : State) : (toIdle s).lastCmd = s.lastCmd := rfl
@[simp] theorem toIdle_seq (s : State) : (toIdle s).seq = .idle := rfl
@[simp] theorem toIdle_counters (s : State) : (toIdle s).counters = none := rfl
@[simp] theorem toIdle_finH (s : State) : (toIdle s).finH = none := rfl
@[simp] theorem toIdle_salt1 (s : State) : (toIdle s).salt1 = s.salt1 := rfl
@[simp] theorem toIdle_salt2 (s : State) : (toIdle s).salt2 = s.salt2 := rfl
@[simp] theorem toIdle_salt3 (s : State) : (toIdle s).salt3 = s.salt3 := rfl
@[simp] theorem toIdle_gxhBase (s : State) : (toIdle s).gxhBase = s.gxhBase := rfl
@[simp] theorem toIdle_mem (s : State) : (toIdle s).mem = s.mem := rfl
@[simp] theorem toIdle_regions (s : State) : (toIdle s).regions = s.regions := rfl
@[simp] theorem toIdle_raced (s : State) : (toIdle s).raced = [] := rfl
@[simp] theorem toIdle_history (s : State) : (toIdle s).history = [] := rfl
@[simp] theorem toIdle_draws (s : State) : (toIdle s).draws = s.draws := rfl
@[simp] theorem toIdle_readData (s : State) : (toIdle s).readData = s.readData := rfl
@[simp] theorem toIdle_agenda (s : State) : (toIdle s).agenda = s.agenda := rfl

@[simp] theorem complete_v (s : State) : (complete s).v = s.v := rfl
@[simp] theorem complete_ptr (s : State) : (complete s).ptr = s.ptr := rfl
@[simp] theorem complete_len (s : State) : (complete s).len = s.len := rfl
@[simp] theorem complete_result (s : State) : (complete s).result = s.result := rfl
@[simp] theorem complete_tailMode (s : State) : (complete s).tailMode = s.tailMode := rfl
@[simp] theorem complete_ieDone (s : State) : (complete s).ieDone = s.ieDone := rfl
@[simp] theorem complete_ieFault (s : State) : (complete s).ieFault = s.ieFault := rfl
@[simp] theorem complete_done (s : State) : (complete s).done = true := rfl
@[simp] theorem complete_fault (s : State) : (complete s).fault = s.fault := rfl
@[simp] theorem complete_cmdErr (s : State) : (complete s).cmdErr = s.cmdErr := rfl
@[simp] theorem complete_cause (s : State) : (complete s).cause = s.cause := rfl
@[simp] theorem complete_faultAddr (s : State) : (complete s).faultAddr = s.faultAddr := rfl
@[simp] theorem complete_lastCmd (s : State) : (complete s).lastCmd = s.lastCmd := rfl
@[simp] theorem complete_seq (s : State) : (complete s).seq = .idle := rfl
@[simp] theorem complete_counters (s : State) : (complete s).counters = none := rfl
@[simp] theorem complete_finH (s : State) : (complete s).finH = none := rfl
@[simp] theorem complete_salt1 (s : State) : (complete s).salt1 = s.salt1 := rfl
@[simp] theorem complete_salt2 (s : State) : (complete s).salt2 = s.salt2 := rfl
@[simp] theorem complete_salt3 (s : State) : (complete s).salt3 = s.salt3 := rfl
@[simp] theorem complete_gxhBase (s : State) : (complete s).gxhBase = s.gxhBase := rfl
@[simp] theorem complete_mem (s : State) : (complete s).mem = s.mem := rfl
@[simp] theorem complete_regions (s : State) : (complete s).regions = s.regions := rfl
@[simp] theorem complete_raced (s : State) : (complete s).raced = [] := rfl
@[simp] theorem complete_history (s : State) : (complete s).history = [] := rfl
@[simp] theorem complete_draws (s : State) : (complete s).draws = s.draws := rfl
@[simp] theorem complete_readData (s : State) : (complete s).readData = s.readData := rfl
@[simp] theorem complete_agenda (s : State) : (complete s).agenda = s.agenda := rfl

@[simp] theorem raiseFault_v (s : State) (c : Cause) (a : DWord) : (raiseFault s c a).v = s.v := rfl
@[simp] theorem raiseFault_ptr (s : State) (c : Cause) (a : DWord) : (raiseFault s c a).ptr = s.ptr := rfl
@[simp] theorem raiseFault_len (s : State) (c : Cause) (a : DWord) : (raiseFault s c a).len = s.len := rfl
@[simp] theorem raiseFault_result (s : State) (c : Cause) (a : DWord) : (raiseFault s c a).result = s.result := rfl
@[simp] theorem raiseFault_tailMode (s : State) (c : Cause) (a : DWord) : (raiseFault s c a).tailMode = s.tailMode := rfl
@[simp] theorem raiseFault_ieDone (s : State) (c : Cause) (a : DWord) : (raiseFault s c a).ieDone = s.ieDone := rfl
@[simp] theorem raiseFault_ieFault (s : State) (c : Cause) (a : DWord) : (raiseFault s c a).ieFault = s.ieFault := rfl
@[simp] theorem raiseFault_done (s : State) (c : Cause) (a : DWord) : (raiseFault s c a).done = s.done := rfl
@[simp] theorem raiseFault_fault (s : State) (c : Cause) (a : DWord) : (raiseFault s c a).fault = true := rfl
@[simp] theorem raiseFault_cmdErr (s : State) (c : Cause) (a : DWord) : (raiseFault s c a).cmdErr = s.cmdErr := rfl
@[simp] theorem raiseFault_cause (s : State) (c : Cause) (a : DWord) : (raiseFault s c a).cause = c := rfl
@[simp] theorem raiseFault_faultAddr (s : State) (c : Cause) (a : DWord) : (raiseFault s c a).faultAddr = a := rfl
@[simp] theorem raiseFault_lastCmd (s : State) (c : Cause) (a : DWord) : (raiseFault s c a).lastCmd = s.lastCmd := rfl
@[simp] theorem raiseFault_seq (s : State) (c : Cause) (a : DWord) : (raiseFault s c a).seq = .idle := rfl
@[simp] theorem raiseFault_counters (s : State) (c : Cause) (a : DWord) : (raiseFault s c a).counters = none := rfl
@[simp] theorem raiseFault_finH (s : State) (c : Cause) (a : DWord) : (raiseFault s c a).finH = none := rfl
@[simp] theorem raiseFault_salt1 (s : State) (c : Cause) (a : DWord) : (raiseFault s c a).salt1 = s.salt1 := rfl
@[simp] theorem raiseFault_salt2 (s : State) (c : Cause) (a : DWord) : (raiseFault s c a).salt2 = s.salt2 := rfl
@[simp] theorem raiseFault_salt3 (s : State) (c : Cause) (a : DWord) : (raiseFault s c a).salt3 = s.salt3 := rfl
@[simp] theorem raiseFault_gxhBase (s : State) (c : Cause) (a : DWord) : (raiseFault s c a).gxhBase = s.gxhBase := rfl
@[simp] theorem raiseFault_mem (s : State) (c : Cause) (a : DWord) : (raiseFault s c a).mem = s.mem := rfl
@[simp] theorem raiseFault_regions (s : State) (c : Cause) (a : DWord) : (raiseFault s c a).regions = s.regions := rfl
@[simp] theorem raiseFault_raced (s : State) (c : Cause) (a : DWord) : (raiseFault s c a).raced = [] := rfl
@[simp] theorem raiseFault_history (s : State) (c : Cause) (a : DWord) : (raiseFault s c a).history = [] := rfl
@[simp] theorem raiseFault_draws (s : State) (c : Cause) (a : DWord) : (raiseFault s c a).draws = s.draws := rfl
@[simp] theorem raiseFault_readData (s : State) (c : Cause) (a : DWord) : (raiseFault s c a).readData = s.readData := rfl
@[simp] theorem raiseFault_agenda (s : State) (c : Cause) (a : DWord) : (raiseFault s c a).agenda = s.agenda := rfl

@[simp] theorem acceptCommand_v (s : State) (c : CmdWord) : (acceptCommand s c).v = s.v := rfl
@[simp] theorem acceptCommand_ptr (s : State) (c : CmdWord) : (acceptCommand s c).ptr = s.ptr := rfl
@[simp] theorem acceptCommand_len (s : State) (c : CmdWord) : (acceptCommand s c).len = s.len := rfl
@[simp] theorem acceptCommand_result (s : State) (c : CmdWord) : (acceptCommand s c).result = s.result := rfl
@[simp] theorem acceptCommand_tailMode (s : State) (c : CmdWord) : (acceptCommand s c).tailMode = s.tailMode := rfl
@[simp] theorem acceptCommand_ieDone (s : State) (c : CmdWord) : (acceptCommand s c).ieDone = s.ieDone := rfl
@[simp] theorem acceptCommand_ieFault (s : State) (c : CmdWord) : (acceptCommand s c).ieFault = s.ieFault := rfl
@[simp] theorem acceptCommand_done (s : State) (c : CmdWord) : (acceptCommand s c).done = s.done := rfl
@[simp] theorem acceptCommand_fault (s : State) (c : CmdWord) : (acceptCommand s c).fault = s.fault := rfl
@[simp] theorem acceptCommand_cmdErr (s : State) (c : CmdWord) : (acceptCommand s c).cmdErr = s.cmdErr := rfl
@[simp] theorem acceptCommand_cause (s : State) (c : CmdWord) : (acceptCommand s c).cause = s.cause := rfl
@[simp] theorem acceptCommand_faultAddr (s : State) (c : CmdWord) : (acceptCommand s c).faultAddr = s.faultAddr := rfl
@[simp] theorem acceptCommand_lastCmd (s : State) (c : CmdWord) : (acceptCommand s c).lastCmd = c := rfl
@[simp] theorem acceptCommand_seq (s : State) (c : CmdWord) : (acceptCommand s c).seq = .exec c 0 := rfl
@[simp] theorem acceptCommand_counters (s : State) (c : CmdWord) : (acceptCommand s c).counters = none := rfl
@[simp] theorem acceptCommand_finH (s : State) (c : CmdWord) : (acceptCommand s c).finH = none := rfl
@[simp] theorem acceptCommand_salt1 (s : State) (c : CmdWord) : (acceptCommand s c).salt1 = s.salt1 := rfl
@[simp] theorem acceptCommand_salt2 (s : State) (c : CmdWord) : (acceptCommand s c).salt2 = s.salt2 := rfl
@[simp] theorem acceptCommand_salt3 (s : State) (c : CmdWord) : (acceptCommand s c).salt3 = s.salt3 := rfl
@[simp] theorem acceptCommand_gxhBase (s : State) (c : CmdWord) : (acceptCommand s c).gxhBase = s.gxhBase := rfl
@[simp] theorem acceptCommand_mem (s : State) (c : CmdWord) : (acceptCommand s c).mem = s.mem := rfl
@[simp] theorem acceptCommand_regions (s : State) (c : CmdWord) : (acceptCommand s c).regions = s.regions := rfl
@[simp] theorem acceptCommand_raced (s : State) (c : CmdWord) : (acceptCommand s c).raced = [] := rfl
@[simp] theorem acceptCommand_history (s : State) (c : CmdWord) : (acceptCommand s c).history = [] := rfl
@[simp] theorem acceptCommand_draws (s : State) (c : CmdWord) : (acceptCommand s c).draws = s.draws + 1 := rfl
@[simp] theorem acceptCommand_readData (s : State) (c : CmdWord) : (acceptCommand s c).readData = s.readData := rfl
@[simp] theorem acceptCommand_agenda (s : State) (c : CmdWord) : (acceptCommand s c).agenda = s.agenda := rfl

@[simp] theorem writeReg_v (s : State) (k : VReg) (x : Vec) : (writeReg s k x).v = setReg s.v k x := rfl
@[simp] theorem writeReg_ptr (s : State) (k : VReg) (x : Vec) : (writeReg s k x).ptr = s.ptr := rfl
@[simp] theorem writeReg_len (s : State) (k : VReg) (x : Vec) : (writeReg s k x).len = s.len := rfl
@[simp] theorem writeReg_result (s : State) (k : VReg) (x : Vec) : (writeReg s k x).result = s.result := rfl
@[simp] theorem writeReg_tailMode (s : State) (k : VReg) (x : Vec) : (writeReg s k x).tailMode = s.tailMode := rfl
@[simp] theorem writeReg_ieDone (s : State) (k : VReg) (x : Vec) : (writeReg s k x).ieDone = s.ieDone := rfl
@[simp] theorem writeReg_ieFault (s : State) (k : VReg) (x : Vec) : (writeReg s k x).ieFault = s.ieFault := rfl
@[simp] theorem writeReg_done (s : State) (k : VReg) (x : Vec) : (writeReg s k x).done = s.done := rfl
@[simp] theorem writeReg_fault (s : State) (k : VReg) (x : Vec) : (writeReg s k x).fault = s.fault := rfl
@[simp] theorem writeReg_cmdErr (s : State) (k : VReg) (x : Vec) : (writeReg s k x).cmdErr = s.cmdErr := rfl
@[simp] theorem writeReg_cause (s : State) (k : VReg) (x : Vec) : (writeReg s k x).cause = s.cause := rfl
@[simp] theorem writeReg_faultAddr (s : State) (k : VReg) (x : Vec) : (writeReg s k x).faultAddr = s.faultAddr := rfl
@[simp] theorem writeReg_lastCmd (s : State) (k : VReg) (x : Vec) : (writeReg s k x).lastCmd = s.lastCmd := rfl
@[simp] theorem writeReg_seq (s : State) (k : VReg) (x : Vec) : (writeReg s k x).seq = s.seq := rfl
@[simp] theorem writeReg_counters (s : State) (k : VReg) (x : Vec) : (writeReg s k x).counters = s.counters := rfl
@[simp] theorem writeReg_finH (s : State) (k : VReg) (x : Vec) : (writeReg s k x).finH = s.finH := rfl
@[simp] theorem writeReg_salt1 (s : State) (k : VReg) (x : Vec) : (writeReg s k x).salt1 = s.salt1 := rfl
@[simp] theorem writeReg_salt2 (s : State) (k : VReg) (x : Vec) : (writeReg s k x).salt2 = s.salt2 := rfl
@[simp] theorem writeReg_salt3 (s : State) (k : VReg) (x : Vec) : (writeReg s k x).salt3 = s.salt3 := rfl
@[simp] theorem writeReg_gxhBase (s : State) (k : VReg) (x : Vec) : (writeReg s k x).gxhBase = s.gxhBase := rfl
@[simp] theorem writeReg_mem (s : State) (k : VReg) (x : Vec) : (writeReg s k x).mem = s.mem := rfl
@[simp] theorem writeReg_regions (s : State) (k : VReg) (x : Vec) : (writeReg s k x).regions = s.regions := rfl
@[simp] theorem writeReg_raced (s : State) (k : VReg) (x : Vec) : (writeReg s k x).raced = s.raced := rfl
@[simp] theorem writeReg_history (s : State) (k : VReg) (x : Vec) : (writeReg s k x).history = s.history := rfl
@[simp] theorem writeReg_draws (s : State) (k : VReg) (x : Vec) : (writeReg s k x).draws = s.draws := rfl
@[simp] theorem writeReg_readData (s : State) (k : VReg) (x : Vec) : (writeReg s k x).readData = s.readData := rfl
@[simp] theorem writeReg_agenda (s : State) (k : VReg) (x : Vec) : (writeReg s k x).agenda = s.agenda := rfl

@[simp] theorem rejectWrite_v (s : State) : (rejectWrite s).v = s.v := rfl
@[simp] theorem rejectWrite_ptr (s : State) : (rejectWrite s).ptr = s.ptr := rfl
@[simp] theorem rejectWrite_len (s : State) : (rejectWrite s).len = s.len := rfl
@[simp] theorem rejectWrite_result (s : State) : (rejectWrite s).result = s.result := rfl
@[simp] theorem rejectWrite_tailMode (s : State) : (rejectWrite s).tailMode = s.tailMode := rfl
@[simp] theorem rejectWrite_ieDone (s : State) : (rejectWrite s).ieDone = s.ieDone := rfl
@[simp] theorem rejectWrite_ieFault (s : State) : (rejectWrite s).ieFault = s.ieFault := rfl
@[simp] theorem rejectWrite_done (s : State) : (rejectWrite s).done = s.done := rfl
@[simp] theorem rejectWrite_fault (s : State) : (rejectWrite s).fault = s.fault := rfl
@[simp] theorem rejectWrite_cmdErr (s : State) : (rejectWrite s).cmdErr = true := rfl
@[simp] theorem rejectWrite_cause (s : State) : (rejectWrite s).cause = s.cause := rfl
@[simp] theorem rejectWrite_faultAddr (s : State) : (rejectWrite s).faultAddr = s.faultAddr := rfl
@[simp] theorem rejectWrite_lastCmd (s : State) : (rejectWrite s).lastCmd = s.lastCmd := rfl
@[simp] theorem rejectWrite_seq (s : State) : (rejectWrite s).seq = s.seq := rfl
@[simp] theorem rejectWrite_counters (s : State) : (rejectWrite s).counters = s.counters := rfl
@[simp] theorem rejectWrite_finH (s : State) : (rejectWrite s).finH = s.finH := rfl
@[simp] theorem rejectWrite_salt1 (s : State) : (rejectWrite s).salt1 = s.salt1 := rfl
@[simp] theorem rejectWrite_salt2 (s : State) : (rejectWrite s).salt2 = s.salt2 := rfl
@[simp] theorem rejectWrite_salt3 (s : State) : (rejectWrite s).salt3 = s.salt3 := rfl
@[simp] theorem rejectWrite_gxhBase (s : State) : (rejectWrite s).gxhBase = s.gxhBase := rfl
@[simp] theorem rejectWrite_mem (s : State) : (rejectWrite s).mem = s.mem := rfl
@[simp] theorem rejectWrite_regions (s : State) : (rejectWrite s).regions = s.regions := rfl
@[simp] theorem rejectWrite_raced (s : State) : (rejectWrite s).raced = s.raced := rfl
@[simp] theorem rejectWrite_history (s : State) : (rejectWrite s).history = s.history := rfl
@[simp] theorem rejectWrite_draws (s : State) : (rejectWrite s).draws = s.draws := rfl
@[simp] theorem rejectWrite_readData (s : State) : (rejectWrite s).readData = s.readData := rfl
@[simp] theorem rejectWrite_agenda (s : State) : (rejectWrite s).agenda = s.agenda := rfl

@[simp] theorem clearStatus_v (s : State) (w : DWord) : (clearStatus s w).v = s.v := rfl
@[simp] theorem clearStatus_ptr (s : State) (w : DWord) : (clearStatus s w).ptr = s.ptr := rfl
@[simp] theorem clearStatus_len (s : State) (w : DWord) : (clearStatus s w).len = s.len := rfl
@[simp] theorem clearStatus_result (s : State) (w : DWord) : (clearStatus s w).result = s.result := rfl
@[simp] theorem clearStatus_tailMode (s : State) (w : DWord) : (clearStatus s w).tailMode = s.tailMode := rfl
@[simp] theorem clearStatus_ieDone (s : State) (w : DWord) : (clearStatus s w).ieDone = s.ieDone := rfl
@[simp] theorem clearStatus_ieFault (s : State) (w : DWord) : (clearStatus s w).ieFault = s.ieFault := rfl
@[simp] theorem clearStatus_done (s : State) (w : DWord) : (clearStatus s w).done = (s.done && !w.getLsbD 1) := rfl
@[simp] theorem clearStatus_fault (s : State) (w : DWord) : (clearStatus s w).fault = (s.fault && !w.getLsbD 2) := rfl
@[simp] theorem clearStatus_cmdErr (s : State) (w : DWord) : (clearStatus s w).cmdErr = (s.cmdErr && !w.getLsbD 3) := rfl
@[simp] theorem clearStatus_cause (s : State) (w : DWord) : (clearStatus s w).cause = s.cause := rfl
@[simp] theorem clearStatus_faultAddr (s : State) (w : DWord) : (clearStatus s w).faultAddr = s.faultAddr := rfl
@[simp] theorem clearStatus_lastCmd (s : State) (w : DWord) : (clearStatus s w).lastCmd = s.lastCmd := rfl
@[simp] theorem clearStatus_seq (s : State) (w : DWord) : (clearStatus s w).seq = s.seq := rfl
@[simp] theorem clearStatus_counters (s : State) (w : DWord) : (clearStatus s w).counters = s.counters := rfl
@[simp] theorem clearStatus_finH (s : State) (w : DWord) : (clearStatus s w).finH = s.finH := rfl
@[simp] theorem clearStatus_salt1 (s : State) (w : DWord) : (clearStatus s w).salt1 = s.salt1 := rfl
@[simp] theorem clearStatus_salt2 (s : State) (w : DWord) : (clearStatus s w).salt2 = s.salt2 := rfl
@[simp] theorem clearStatus_salt3 (s : State) (w : DWord) : (clearStatus s w).salt3 = s.salt3 := rfl
@[simp] theorem clearStatus_gxhBase (s : State) (w : DWord) : (clearStatus s w).gxhBase = s.gxhBase := rfl
@[simp] theorem clearStatus_mem (s : State) (w : DWord) : (clearStatus s w).mem = s.mem := rfl
@[simp] theorem clearStatus_regions (s : State) (w : DWord) : (clearStatus s w).regions = s.regions := rfl
@[simp] theorem clearStatus_raced (s : State) (w : DWord) : (clearStatus s w).raced = s.raced := rfl
@[simp] theorem clearStatus_history (s : State) (w : DWord) : (clearStatus s w).history = s.history := rfl
@[simp] theorem clearStatus_draws (s : State) (w : DWord) : (clearStatus s w).draws = s.draws := rfl
@[simp] theorem clearStatus_readData (s : State) (w : DWord) : (clearStatus s w).readData = s.readData := rfl
@[simp] theorem clearStatus_agenda (s : State) (w : DWord) : (clearStatus s w).agenda = s.agenda := rfl

@[simp] theorem setCtrl_v (s : State) (w : DWord) : (setCtrl s w).v = s.v := rfl
@[simp] theorem setCtrl_ptr (s : State) (w : DWord) : (setCtrl s w).ptr = s.ptr := rfl
@[simp] theorem setCtrl_len (s : State) (w : DWord) : (setCtrl s w).len = s.len := rfl
@[simp] theorem setCtrl_result (s : State) (w : DWord) : (setCtrl s w).result = s.result := rfl
@[simp] theorem setCtrl_tailMode (s : State) (w : DWord) : (setCtrl s w).tailMode = w.getLsbD 0 := rfl
@[simp] theorem setCtrl_ieDone (s : State) (w : DWord) : (setCtrl s w).ieDone = w.getLsbD 1 := rfl
@[simp] theorem setCtrl_ieFault (s : State) (w : DWord) : (setCtrl s w).ieFault = w.getLsbD 2 := rfl
@[simp] theorem setCtrl_done (s : State) (w : DWord) : (setCtrl s w).done = s.done := rfl
@[simp] theorem setCtrl_fault (s : State) (w : DWord) : (setCtrl s w).fault = s.fault := rfl
@[simp] theorem setCtrl_cmdErr (s : State) (w : DWord) : (setCtrl s w).cmdErr = s.cmdErr := rfl
@[simp] theorem setCtrl_cause (s : State) (w : DWord) : (setCtrl s w).cause = s.cause := rfl
@[simp] theorem setCtrl_faultAddr (s : State) (w : DWord) : (setCtrl s w).faultAddr = s.faultAddr := rfl
@[simp] theorem setCtrl_lastCmd (s : State) (w : DWord) : (setCtrl s w).lastCmd = s.lastCmd := rfl
@[simp] theorem setCtrl_seq (s : State) (w : DWord) : (setCtrl s w).seq = s.seq := rfl
@[simp] theorem setCtrl_counters (s : State) (w : DWord) : (setCtrl s w).counters = s.counters := rfl
@[simp] theorem setCtrl_finH (s : State) (w : DWord) : (setCtrl s w).finH = s.finH := rfl
@[simp] theorem setCtrl_salt1 (s : State) (w : DWord) : (setCtrl s w).salt1 = s.salt1 := rfl
@[simp] theorem setCtrl_salt2 (s : State) (w : DWord) : (setCtrl s w).salt2 = s.salt2 := rfl
@[simp] theorem setCtrl_salt3 (s : State) (w : DWord) : (setCtrl s w).salt3 = s.salt3 := rfl
@[simp] theorem setCtrl_gxhBase (s : State) (w : DWord) : (setCtrl s w).gxhBase = s.gxhBase := rfl
@[simp] theorem setCtrl_mem (s : State) (w : DWord) : (setCtrl s w).mem = s.mem := rfl
@[simp] theorem setCtrl_regions (s : State) (w : DWord) : (setCtrl s w).regions = s.regions := rfl
@[simp] theorem setCtrl_raced (s : State) (w : DWord) : (setCtrl s w).raced = s.raced := rfl
@[simp] theorem setCtrl_history (s : State) (w : DWord) : (setCtrl s w).history = s.history := rfl
@[simp] theorem setCtrl_draws (s : State) (w : DWord) : (setCtrl s w).draws = s.draws := rfl
@[simp] theorem setCtrl_readData (s : State) (w : DWord) : (setCtrl s w).readData = s.readData := rfl
@[simp] theorem setCtrl_agenda (s : State) (w : DWord) : (setCtrl s w).agenda = s.agenda := rfl

@[simp] theorem advance_v (sn : Snapshot) (s : State) : (advance sn s).v = s.v := rfl
@[simp] theorem advance_ptr (sn : Snapshot) (s : State) : (advance sn s).ptr = s.ptr := rfl
@[simp] theorem advance_len (sn : Snapshot) (s : State) : (advance sn s).len = s.len := rfl
@[simp] theorem advance_result (sn : Snapshot) (s : State) : (advance sn s).result = s.result := rfl
@[simp] theorem advance_tailMode (sn : Snapshot) (s : State) : (advance sn s).tailMode = s.tailMode := rfl
@[simp] theorem advance_ieDone (sn : Snapshot) (s : State) : (advance sn s).ieDone = s.ieDone := rfl
@[simp] theorem advance_ieFault (sn : Snapshot) (s : State) : (advance sn s).ieFault = s.ieFault := rfl
@[simp] theorem advance_done (sn : Snapshot) (s : State) : (advance sn s).done = s.done := rfl
@[simp] theorem advance_fault (sn : Snapshot) (s : State) : (advance sn s).fault = s.fault := rfl
@[simp] theorem advance_cmdErr (sn : Snapshot) (s : State) : (advance sn s).cmdErr = s.cmdErr := rfl
@[simp] theorem advance_cause (sn : Snapshot) (s : State) : (advance sn s).cause = s.cause := rfl
@[simp] theorem advance_faultAddr (sn : Snapshot) (s : State) : (advance sn s).faultAddr = s.faultAddr := rfl
@[simp] theorem advance_lastCmd (sn : Snapshot) (s : State) : (advance sn s).lastCmd = s.lastCmd := rfl
@[simp] theorem advance_seq (sn : Snapshot) (s : State) : (advance sn s).seq = (match s.seq with | .idle => .idle | .exec c j => .exec c (j + 1)) := rfl
@[simp] theorem advance_counters (sn : Snapshot) (s : State) : (advance sn s).counters = s.counters := rfl
@[simp] theorem advance_finH (sn : Snapshot) (s : State) : (advance sn s).finH = s.finH := rfl
@[simp] theorem advance_salt1 (sn : Snapshot) (s : State) : (advance sn s).salt1 = s.salt1 := rfl
@[simp] theorem advance_salt2 (sn : Snapshot) (s : State) : (advance sn s).salt2 = s.salt2 := rfl
@[simp] theorem advance_salt3 (sn : Snapshot) (s : State) : (advance sn s).salt3 = s.salt3 := rfl
@[simp] theorem advance_gxhBase (sn : Snapshot) (s : State) : (advance sn s).gxhBase = s.gxhBase := rfl
@[simp] theorem advance_mem (sn : Snapshot) (s : State) : (advance sn s).mem = s.mem := rfl
@[simp] theorem advance_regions (sn : Snapshot) (s : State) : (advance sn s).regions = s.regions := rfl
@[simp] theorem advance_raced (sn : Snapshot) (s : State) : (advance sn s).raced = s.raced := rfl
@[simp] theorem advance_history (sn : Snapshot) (s : State) : (advance sn s).history = sn :: s.history := rfl
@[simp] theorem advance_draws (sn : Snapshot) (s : State) : (advance sn s).draws = s.draws := rfl
@[simp] theorem advance_readData (sn : Snapshot) (s : State) : (advance sn s).readData = s.readData := rfl
@[simp] theorem advance_agenda (sn : Snapshot) (s : State) : (advance sn s).agenda = s.agenda := rfl

@[simp] theorem resetBlock_v (s : State) : (resetBlock s).v = State.reset.v := rfl
@[simp] theorem resetBlock_ptr (s : State) : (resetBlock s).ptr = State.reset.ptr := rfl
@[simp] theorem resetBlock_len (s : State) : (resetBlock s).len = State.reset.len := rfl
@[simp] theorem resetBlock_result (s : State) : (resetBlock s).result = State.reset.result := rfl
@[simp] theorem resetBlock_tailMode (s : State) : (resetBlock s).tailMode = State.reset.tailMode := rfl
@[simp] theorem resetBlock_ieDone (s : State) : (resetBlock s).ieDone = State.reset.ieDone := rfl
@[simp] theorem resetBlock_ieFault (s : State) : (resetBlock s).ieFault = State.reset.ieFault := rfl
@[simp] theorem resetBlock_done (s : State) : (resetBlock s).done = State.reset.done := rfl
@[simp] theorem resetBlock_fault (s : State) : (resetBlock s).fault = State.reset.fault := rfl
@[simp] theorem resetBlock_cmdErr (s : State) : (resetBlock s).cmdErr = State.reset.cmdErr := rfl
@[simp] theorem resetBlock_cause (s : State) : (resetBlock s).cause = State.reset.cause := rfl
@[simp] theorem resetBlock_faultAddr (s : State) : (resetBlock s).faultAddr = State.reset.faultAddr := rfl
@[simp] theorem resetBlock_lastCmd (s : State) : (resetBlock s).lastCmd = State.reset.lastCmd := rfl
@[simp] theorem resetBlock_seq (s : State) : (resetBlock s).seq = State.reset.seq := rfl
@[simp] theorem resetBlock_counters (s : State) : (resetBlock s).counters = State.reset.counters := rfl
@[simp] theorem resetBlock_finH (s : State) : (resetBlock s).finH = State.reset.finH := rfl
@[simp] theorem resetBlock_salt1 (s : State) : (resetBlock s).salt1 = s.salt1 := rfl
@[simp] theorem resetBlock_salt2 (s : State) : (resetBlock s).salt2 = s.salt2 := rfl
@[simp] theorem resetBlock_salt3 (s : State) : (resetBlock s).salt3 = s.salt3 := rfl
@[simp] theorem resetBlock_gxhBase (s : State) : (resetBlock s).gxhBase = s.gxhBase := rfl
@[simp] theorem resetBlock_mem (s : State) : (resetBlock s).mem = s.mem := rfl
@[simp] theorem resetBlock_regions (s : State) : (resetBlock s).regions = s.regions := rfl
@[simp] theorem resetBlock_raced (s : State) : (resetBlock s).raced = State.reset.raced := rfl
@[simp] theorem resetBlock_history (s : State) : (resetBlock s).history = State.reset.history := rfl
@[simp] theorem resetBlock_draws (s : State) : (resetBlock s).draws = s.draws := rfl
@[simp] theorem resetBlock_readData (s : State) : (resetBlock s).readData = s.readData := rfl
@[simp] theorem resetBlock_agenda (s : State) : (resetBlock s).agenda = s.agenda := rfl

@[simp] theorem writeMemory_v (s : State) (a : Nat) (x : Byte) : (writeMemory s a x).v = s.v := rfl
@[simp] theorem writeMemory_ptr (s : State) (a : Nat) (x : Byte) : (writeMemory s a x).ptr = s.ptr := rfl
@[simp] theorem writeMemory_len (s : State) (a : Nat) (x : Byte) : (writeMemory s a x).len = s.len := rfl
@[simp] theorem writeMemory_result (s : State) (a : Nat) (x : Byte) : (writeMemory s a x).result = s.result := rfl
@[simp] theorem writeMemory_tailMode (s : State) (a : Nat) (x : Byte) : (writeMemory s a x).tailMode = s.tailMode := rfl
@[simp] theorem writeMemory_ieDone (s : State) (a : Nat) (x : Byte) : (writeMemory s a x).ieDone = s.ieDone := rfl
@[simp] theorem writeMemory_ieFault (s : State) (a : Nat) (x : Byte) : (writeMemory s a x).ieFault = s.ieFault := rfl
@[simp] theorem writeMemory_done (s : State) (a : Nat) (x : Byte) : (writeMemory s a x).done = s.done := rfl
@[simp] theorem writeMemory_fault (s : State) (a : Nat) (x : Byte) : (writeMemory s a x).fault = s.fault := rfl
@[simp] theorem writeMemory_cmdErr (s : State) (a : Nat) (x : Byte) : (writeMemory s a x).cmdErr = s.cmdErr := rfl
@[simp] theorem writeMemory_cause (s : State) (a : Nat) (x : Byte) : (writeMemory s a x).cause = s.cause := rfl
@[simp] theorem writeMemory_faultAddr (s : State) (a : Nat) (x : Byte) : (writeMemory s a x).faultAddr = s.faultAddr := rfl
@[simp] theorem writeMemory_lastCmd (s : State) (a : Nat) (x : Byte) : (writeMemory s a x).lastCmd = s.lastCmd := rfl
@[simp] theorem writeMemory_seq (s : State) (a : Nat) (x : Byte) : (writeMemory s a x).seq = s.seq := rfl
@[simp] theorem writeMemory_counters (s : State) (a : Nat) (x : Byte) : (writeMemory s a x).counters = s.counters := rfl
@[simp] theorem writeMemory_finH (s : State) (a : Nat) (x : Byte) : (writeMemory s a x).finH = s.finH := rfl
@[simp] theorem writeMemory_salt1 (s : State) (a : Nat) (x : Byte) : (writeMemory s a x).salt1 = s.salt1 := rfl
@[simp] theorem writeMemory_salt2 (s : State) (a : Nat) (x : Byte) : (writeMemory s a x).salt2 = s.salt2 := rfl
@[simp] theorem writeMemory_salt3 (s : State) (a : Nat) (x : Byte) : (writeMemory s a x).salt3 = s.salt3 := rfl
@[simp] theorem writeMemory_gxhBase (s : State) (a : Nat) (x : Byte) : (writeMemory s a x).gxhBase = s.gxhBase := rfl
@[simp] theorem writeMemory_mem (s : State) (a : Nat) (x : Byte) : (writeMemory s a x).mem = Memory.write s.mem a x := rfl
@[simp] theorem writeMemory_regions (s : State) (a : Nat) (x : Byte) : (writeMemory s a x).regions = s.regions := rfl
@[simp] theorem writeMemory_raced (s : State) (a : Nat) (x : Byte) : (writeMemory s a x).raced = (if busy s then (a, Memory.read s.mem a) :: s.raced else s.raced) := rfl
@[simp] theorem writeMemory_history (s : State) (a : Nat) (x : Byte) : (writeMemory s a x).history = s.history := rfl
@[simp] theorem writeMemory_draws (s : State) (a : Nat) (x : Byte) : (writeMemory s a x).draws = s.draws := rfl
@[simp] theorem writeMemory_readData (s : State) (a : Nat) (x : Byte) : (writeMemory s a x).readData = s.readData := rfl
@[simp] theorem writeMemory_agenda (s : State) (a : Nat) (x : Byte) : (writeMemory s a x).agenda = s.agenda := rfl

end Sys2Proof.Machine
end

