-- ==== Sys2Proof/Laws/Vectors.lean ====
section
/-! SUPPORT. A vector is its sixteen lane bytes (R10); the compression primitive is the round XORed with its
second operand (R196). -/

namespace Sys2Proof.Machine

theorem extract_append_low {w : Nat} (x : BitVec w) (y : Byte) : (x ++ y).extractLsb' 0 8 = y := by
  apply BitVec.eq_of_getLsbD_eq
  intro k hk
  rw [BitVec.getLsbD_extractLsb', BitVec.getLsbD_append]
  simp [hk]

theorem extract_append_high {w : Nat} (x : BitVec w) (y : Byte) (n : Nat) :
    (x ++ y).extractLsb' (n + 8) 8 = x.extractLsb' n 8 := by
  apply BitVec.eq_of_getLsbD_eq
  intro k hk
  rw [BitVec.getLsbD_extractLsb', BitVec.getLsbD_append, BitVec.getLsbD_extractLsb',
    if_neg (by omega), show n + 8 + k - 8 = n + k by omega]

theorem laneByte_vecOfBytes (b : Nat → Byte) {i : Nat} (h : i < 16) : laneByte (vecOfBytes b) i = b i := by
  obtain ⟨j, rfl⟩ : ∃ j : Fin 16, j.val = i := ⟨⟨i, h⟩, rfl⟩
  unfold laneByte vecOfBytes
  fin_cases j
  · exact extract_append_low ..
  · iterate 1 refine (extract_append_high ..).trans ?_
    exact extract_append_low ..
  · iterate 2 refine (extract_append_high ..).trans ?_
    exact extract_append_low ..
  · iterate 3 refine (extract_append_high ..).trans ?_
    exact extract_append_low ..
  · iterate 4 refine (extract_append_high ..).trans ?_
    exact extract_append_low ..
  · iterate 5 refine (extract_append_high ..).trans ?_
    exact extract_append_low ..
  · iterate 6 refine (extract_append_high ..).trans ?_
    exact extract_append_low ..
  · iterate 7 refine (extract_append_high ..).trans ?_
    exact extract_append_low ..
  · iterate 8 refine (extract_append_high ..).trans ?_
    exact extract_append_low ..
  · iterate 9 refine (extract_append_high ..).trans ?_
    exact extract_append_low ..
  · iterate 10 refine (extract_append_high ..).trans ?_
    exact extract_append_low ..
  · iterate 11 refine (extract_append_high ..).trans ?_
    exact extract_append_low ..
  · iterate 12 refine (extract_append_high ..).trans ?_
    exact extract_append_low ..
  · iterate 13 refine (extract_append_high ..).trans ?_
    exact extract_append_low ..
  · iterate 14 refine (extract_append_high ..).trans ?_
    exact extract_append_low ..
  · iterate 15 refine (extract_append_high ..).trans ?_
    exact BitVec.extractLsb'_eq_self

/-- Two vectors with the same lane bytes are the same. -/
theorem vec_ext (v w : Vec) (h : ∀ i < 16, laneByte v i = laneByte w i) : v = w := by
  apply BitVec.eq_of_getLsbD_eq
  intro k hk
  have hb := congrArg (fun x => x.getLsbD (k % 8)) (h (k / 8) (by omega))
  simp only [laneByte, BitVec.getLsbD_extractLsb'] at hb
  have hlt : k % 8 < 8 := Nat.mod_lt _ (by decide)
  have hk' : 8 * (k / 8) + k % 8 = k := Nat.div_add_mod k 8
  simpa [hlt, hk'] using hb

theorem vecOfBytes_laneByte (v : Vec) : vecOfBytes (laneByte v) = v :=
  vec_ext _ _ fun _ h => laneByte_vecOfBytes _ h

theorem vecOfBytes_congr {b c : Nat → Byte} (h : ∀ i < 16, b i = c i) : vecOfBytes b = vecOfBytes c :=
  vec_ext _ _ fun i hi => by rw [laneByte_vecOfBytes b hi, laneByte_vecOfBytes c hi, h i hi]

@[simp] theorem compress_eq (a b : Vec) : compress a b = aesR a ^^^ b := by
  simp [compress, aesRound]

@[simp] theorem encryptRound_eq (a k : Vec) : encryptRound a k = aesR a ^^^ k := rfl

@[simp] theorem encryptRoundLast_eq (a k : Vec) : encryptRoundLast a k = aesR a ^^^ k := rfl

end Sys2Proof.Machine
end

