-- ==== Sys2Proof/Laws/Ops.lean ====
section
/-! SUPPORT. For each shared operation one lemma that says all it can do. -/

namespace Sys2Proof.Machine

/-! ### Draws and byte reads -/

/-- A draw is one of the values it draws from. -/
theorem drawFrom_mem {α : Type} [DecidableEq α] (n : Nat) (x : α) (xs : List α) :
    drawFrom n x xs ∈ x :: xs := by
  unfold drawFrom
  split_ifs
  · exact List.mem_cons_self ..
  · have h : n % (xs.length + 1) < (x :: xs).length := by
      simpa using Nat.mod_lt n (Nat.succ_pos xs.length)
    rw [List.getD_eq_getElem _ _ h]
    exact List.getElem_mem h

@[simp] theorem drawFrom_nil {α : Type} [DecidableEq α] (n : Nat) (x : α) : drawFrom n x [] = x := by
  simp [drawFrom]

/-- Where nothing raced, a byte read returns what memory holds (R87). -/
theorem byteAt_of_no_race {s : State} (h : s.raced = []) (a : Nat) : byteAt s a = Memory.read s.mem a := by
  simp [byteAt, h]

/-- A byte read returns what memory holds or a value the byte had since the command was accepted (R93). -/
theorem byteAt_mem (s : State) (a : Nat) :
    byteAt s a = Memory.read s.mem a ∨ (a, byteAt s a) ∈ s.raced := by
  rcases List.mem_cons.mp (drawFrom_mem (Config.raceDraw s.draws a) (Memory.read s.mem a)
    ((s.raced.filter fun c => c.1 == a).map fun c => c.2)) with h | h
  · exact .inl h
  · right
    obtain ⟨c, hc, he⟩ := List.mem_map.mp h
    have hf := List.mem_filter.mp hc
    have hca : c.1 = a := by simpa using hf.2
    have : (a, byteAt s a) = c := Prod.ext hca.symm he.symm
    exact this ▸ hf.1

/-! ### The memory port -/

/-- A stretch touches a region kind exactly when one of its bytes lies in a region of that kind. -/
theorem touches_iff (s : State) (k : RegionKind) (a n : Nat) :
    touches s k a n = true ↔ ∃ i < n, touches s k (a + i) 1 = true := by
  simp only [touches, List.any_eq_true, Bool.and_eq_true, beq_iff_eq, decide_eq_true_eq]
  constructor
  · rintro ⟨r, hr, hk, hlt⟩
    refine ⟨max r.base a - a, by omega, r, hr, hk, by omega⟩
  · rintro ⟨i, hi, r, hr, hk, hlt⟩
    exact ⟨r, hr, hk, by omega⟩

theorem touches_false_iff (s : State) (k : RegionKind) (a n : Nat) :
    touches s k a n = false ↔ ∀ i < n, touches s k (a + i) 1 = false := by
  rw [← not_iff_not]
  simp only [Bool.not_eq_false, touches_iff s k a n, not_forall, exists_prop]

theorem portAnswer_answered_iff (s : State) (a n : Nat) :
    portAnswer s a n = .answered ↔
      touches s .sideEffect a n = false ∧ touches s .silent a n = false ∧ touches s .refusing a n = false := by
  unfold portAnswer
  split_ifs <;> simp_all

/-- Everything an access can do. -/
theorem accessThen_cases (s : State) (a n : Nat) (fa : DWord) (s' : State) :
    (Config.addressSpace < a + n ∧ accessThen s a n fa s' = .fault s .addrWrap (BitVec.ofNat 64 a)) ∨
    (a + n ≤ Config.addressSpace ∧
      ((portAnswer s a n = .answered ∧ accessThen s a n fa s' = .done s') ∨
       (portAnswer s a n = .refused ∧ accessThen s a n fa s' = .fault s .accessFault fa) ∨
       (portAnswer s a n = .silent ∧ accessThen s a n fa s' = .stuck s) ∨
       (portAnswer s a n = .outside ∧ accessThen s a n fa s' = .outside))) := by
  unfold accessThen
  by_cases h : Config.addressSpace < a + n
  · left
    simp [h]
  · right
    refine ⟨not_lt.mp h, ?_⟩
    rw [if_neg h]
    cases portAnswer s a n <;> simp

/-- An access that finishes gives the state it was to give, within the address space and answered. -/
theorem accessThen_done {s s' u : State} {a n : Nat} {fa : DWord} (h : accessThen s a n fa s' = .done u) :
    u = s' ∧ a + n ≤ Config.addressSpace ∧ portAnswer s a n = .answered := by
  rcases accessThen_cases s a n fa s' with ⟨_, he⟩ | ⟨hle, ⟨hp, he⟩ | ⟨_, he⟩ | ⟨_, he⟩ | ⟨_, he⟩⟩ <;>
    rw [he] at h <;> cases h
  exact ⟨rfl, hle, hp⟩

/-- An access that faults writes nothing and reports ADDR_WRAP or ACCESS_FAULT. -/
theorem accessThen_fault {s s' u : State} {a n : Nat} {fa addr : DWord} {c : Cause}
    (h : accessThen s a n fa s' = .fault u c addr) :
    u = s ∧ ((c = .addrWrap ∧ addr = BitVec.ofNat 64 a ∧ Config.addressSpace < a + n) ∨
      (c = .accessFault ∧ addr = fa ∧ a + n ≤ Config.addressSpace ∧ portAnswer s a n = .refused)) := by
  rcases accessThen_cases s a n fa s' with ⟨hl, he⟩ | ⟨hle, ⟨_, he⟩ | ⟨hp, he⟩ | ⟨_, he⟩ | ⟨_, he⟩⟩ <;>
    rw [he] at h <;> cases h
  · exact ⟨rfl, .inl ⟨rfl, rfl, hl⟩⟩
  · exact ⟨rfl, .inr ⟨rfl, rfl, hle, hp⟩⟩

/-- An access that is never answered changes nothing. -/
theorem accessThen_stuck {s s' u : State} {a n : Nat} {fa : DWord} (h : accessThen s a n fa s' = .stuck u) :
    u = s ∧ portAnswer s a n = .silent := by
  rcases accessThen_cases s a n fa s' with ⟨_, he⟩ | ⟨_, ⟨_, he⟩ | ⟨_, he⟩ | ⟨hp, he⟩ | ⟨_, he⟩⟩ <;>
    rw [he] at h <;> cases h
  exact ⟨rfl, hp⟩

/-! ### The end of a command -/

/-- Everything the end of a command can be. -/
theorem conclude_next {r : OpResult} {t : State} (h : conclude r = .next t) :
    (∃ s, r = .done s ∧ t = complete s) ∨ (∃ s c a, r = .fault s c a ∧ t = raiseFault s c a) ∨
      r = .stuck t := by
  cases r with
  | done s => exact .inl ⟨s, rfl, (Host.Outcome.next.inj h).symm⟩
  | fault s c a => exact .inr (.inl ⟨s, c, a, rfl, (Host.Outcome.next.inj h).symm⟩)
  | stuck s => exact .inr (.inr (congrArg _ (Host.Outcome.next.inj h)))
  | outside => cases h

/-- A command's end is refused only where its footprint has read side effects. -/
theorem conclude_refused {r : OpResult} {e : Refusal} (h : conclude r = .refused e) :
    r = .outside ∧ e = .readSideEffect := by
  cases r <;> cases h
  exact ⟨rfl, rfl⟩

end Sys2Proof.Machine
end

