-- ==== Sys2Proof/Laws/Hash.lean ====
section
/-! SUPPORT. What a line of the microprogram, and a run of lines, can do. -/

namespace Sys2Proof.Machine

/-- All that an effect writes: the vector registers, PTR, RESULT and the finalizer's hidden vector. -/
def withEffect (s t : State) : State :=
  { s with v := t.v, ptr := t.ptr, result := t.result, finH := t.finH }

/-- A line of the microprogram that finishes writes nothing else. -/
theorem microEffect_done {op : MicroOp} {s t : State} (h : microEffect op s = .done t) :
    t = withEffect s t := by
  cases op <;> simp only [microEffect] at h
  case linit => obtain ⟨rfl, _⟩ := accessThen_done h; rfl
  case lstep => obtain ⟨rfl, _⟩ := accessThen_done h; rfl
  case lredAcc => cases h; rfl
  case zeroAcc => cases h; rfl
  case loadTmp => obtain ⟨rfl, _⟩ := accessThen_done h; rfl
  case compAcc => cases h; rfl
  case loadpTmp r => obtain ⟨rfl, _⟩ := accessThen_done h; rfl
  case finAcc => cases h; rfl

/-- A line that faults writes nothing (R283, R312). -/
theorem microEffect_fault {op : MicroOp} {s u : State} {c : Cause} {a : DWord}
    (h : microEffect op s = .fault u c a) : u = s ∧ (c = .addrWrap ∨ c = .accessFault) := by
  cases op <;> simp only [microEffect] at h
  case lredAcc => cases h
  case zeroAcc => cases h
  case compAcc => cases h
  case finAcc => cases h
  all_goals
    obtain ⟨rfl, h | h⟩ := accessThen_fault h
    · exact ⟨rfl, .inl h.1⟩
    · exact ⟨rfl, .inr h.1⟩

/-- A line whose read is never answered writes nothing (R367). -/
theorem microEffect_stuck {op : MicroOp} {s u : State} (h : microEffect op s = .stuck u) : u = s := by
  cases op <;> simp only [microEffect] at h
  case lredAcc => cases h
  case zeroAcc => cases h
  case compAcc => cases h
  case finAcc => cases h
  all_goals exact (accessThen_stuck h).1

/-- Everything a line and the move past it can do. -/
theorem microStep_cases (op : MicroOp) (s : State) :
    (∃ t, microEffect op s = .done t ∧ microStep op s = .done (advance (snapshot s) t)) ∨
    (∃ c a, microEffect op s = .fault s c a ∧ microStep op s = .fault s c a) ∨
    (microEffect op s = .stuck s ∧ microStep op s = .stuck s) ∨
    (microEffect op s = .outside ∧ microStep op s = .outside) := by
  unfold microStep
  cases h : microEffect op s with
  | done t => exact .inl ⟨t, rfl, rfl⟩
  | fault u c a =>
    obtain ⟨rfl, _⟩ := microEffect_fault h
    exact .inr (.inl ⟨c, a, rfl, rfl⟩)
  | stuck u =>
    obtain rfl := microEffect_stuck h
    exact .inr (.inr (.inl ⟨rfl, rfl⟩))
  | outside => exact .inr (.inr (.inr ⟨rfl, rfl⟩))

/-- A run of lines is a run of the first part and then of the second, where the first part finishes. -/
theorem runMicro_append_done {p q : List MicroOp} {s t : State} (h : runMicro p s = .done t) :
    runMicro (p ++ q) s = runMicro q t := by
  induction p generalizing s with
  | nil => cases h; rfl
  | cons op p ih =>
    simp only [List.cons_append, runMicro] at h ⊢
    cases hm : microStep op s with
    | done u => rw [hm] at h; exact ih h
    | fault u c a => rw [hm] at h; cases h
    | stuck u => rw [hm] at h; cases h
    | outside => rw [hm] at h; cases h

/-- A run that does not finish ends with its first line that does not, and the lines before it have finished
(R283). -/
theorem runMicro_split {p : List MicroOp} {s : State} {r : OpResult} (h : runMicro p s = r) :
    (∃ t, r = .done t) ∨
    ∃ before op after u, p = before ++ op :: after ∧ runMicro before s = .done u ∧ microStep op u = r := by
  induction p generalizing s with
  | nil => exact .inl ⟨s, h.symm⟩
  | cons op p ih =>
    simp only [runMicro] at h
    cases hm : microStep op s with
    | done u =>
      rw [hm] at h
      rcases ih h with hd | ⟨before, op', after, w, rfl, hb, hw⟩
      · exact .inl hd
      · exact .inr ⟨op :: before, op', after, w, rfl, by simp [runMicro, hm, hb], hw⟩
    | fault u c a => rw [hm] at h; exact .inr ⟨[], op, p, s, rfl, rfl, by rw [hm, ← h]⟩
    | stuck u => rw [hm] at h; exact .inr ⟨[], op, p, s, rfl, rfl, by rw [hm, ← h]⟩
    | outside => rw [hm] at h; exact .inr ⟨[], op, p, s, rfl, rfl, by rw [hm, ← h]⟩

/-- The unrolled path is taken exactly for 128 bytes or more (R272). -/
theorem unrolled_iff (len : Nat) : 8 ≤ (hashCounters len).total ↔ 128 ≤ len := by
  simp only [hashCounters]
  omega

end Sys2Proof.Machine
end

