-- ==== Sys2Proof/Laws/HostPort.lean ====
section
/-! SUPPORT. What a host access and the other events can do, and where a read while BUSY takes its value from. -/

namespace Sys2Proof.Machine

/-! ### Counting a read -/

@[simp] theorem countRead_draws (s : State) : (countRead s).draws = s.draws + 1 := rfl
@[simp] theorem countRead_history (s : State) : (countRead s).history = s.history := rfl
@[simp] theorem countRead_agenda (s : State) : (countRead s).agenda = s.agenda := rfl
@[simp] theorem snapshot_countRead (s : State) : snapshot (countRead s) = snapshot s := rfl
@[simp] theorem busy_countRead (s : State) : busy (countRead s) = busy s := rfl
@[simp] theorem snapshot_hostRead (s : State) (o width : Nat) : snapshot (hostRead s o width) = snapshot s := rfl
@[simp] theorem busy_hostRead (s : State) (o width : Nat) : busy (hostRead s o width) = busy s := rfl

/-- A read writes the value it returns and is counted. -/
theorem hostRead_frame (s : State) (o width : Nat) :
    hostRead s o width =
      { s with readData := (hostRead s o width).readData, draws := s.draws + 1 } := rfl

/-! ### Accesses -/

/-- Everything a host access that is let through can do. -/
theorem accessWith_next {read : State → Nat → Nat → State} {s t : State} {a : HostAccess}
    (h : accessWith read s a = .next t) :
    (∃ addr width, a = .read addr width ∧ accessRefusal (blockOffset s addr) width = none ∧
      t = read s (blockOffset s addr) width) ∨
    ∃ addr width w, a = .write addr width w ∧ accessRefusal (blockOffset s addr) width = none ∧
      t = hostWrite s (blockOffset s addr) width w := by
  cases a with
  | read addr width =>
    simp only [accessWith] at h
    split at h
    · cases h
    · exact .inl ⟨addr, width, rfl, ‹_›, (Host.Outcome.next.inj h).symm⟩
  | write addr width w =>
    simp only [accessWith] at h
    split at h
    · cases h
    · exact .inr ⟨addr, width, w, rfl, ‹_›, (Host.Outcome.next.inj h).symm⟩

/-- Everything a host write while BUSY can do (R42, R46, R48). -/
theorem hostWrite_busy {s : State} (hb : busy s = true) (o width : Nat) (w : DWord) :
    hostWrite s o width w = resetBlock s ∨ hostWrite s o width w = rejectWrite s ∨
      hostWrite s o width w = clearStatus s w ∨ hostWrite s o width w = s := by
  unfold hostWrite
  cases regAt (o - o % 8) <;> simp only [hb, Bool.true_or, if_true] <;> (try split_ifs) <;> simp

/-! ### Instants -/

/-- A register read while BUSY has its value of an instant behind, present or ahead (R43). -/
theorem busyWord_instant (s : State) (reg : RegName) :
    ∃ sn ∈ snapshot s :: (s.history ++ commandAhead (countRead s)), busyWord s reg = regWord s sn reg := by
  rcases List.mem_cons.mp (drawFrom_mem (Config.busyDraw s.draws) (regWord s (snapshot s) reg)
    ((s.history ++ commandAhead (countRead s)).map fun sn => regWord s sn reg)) with h | h
  · exact ⟨snapshot s, List.mem_cons_self .., h⟩
  · obtain ⟨sn, hm, he⟩ := List.mem_map.mp h
    exact ⟨sn, List.mem_cons_of_mem _ hm, he.symm⟩

/-- The instants ahead over a first event: none where the machine stops or a reset abandons the command. -/
theorem aheadOver_cons (e : Event) (es : List Event) (s : State) :
    aheadOver (e :: es) s =
      match eventWith (fun s _ _ => countRead s) e s with
      | .next s' =>
        if busy s' then snapshot s' :: aheadOver es s'
        else if s'.done || s'.fault then [snapshot s'] else []
      | .fault _ => []
      | .refused _ => [] := rfl

/-- Where nothing else will happen, the instants ahead are those of the engine alone. -/
theorem commandAhead_of_empty {s : State} (h : s.agenda = []) : commandAhead s = engineAhead s := by
  simp [commandAhead, h, aheadOver]

/-- A write of another agent changes none of the registers that R43 speaks of. -/
theorem snapshot_memWrite (s : State) (a : Nat) (x : Byte) : snapshot (writeMemory s a x) = snapshot s := rfl

end Sys2Proof.Machine
end

