-- ==== Sys2Proof/Laws/PerInstr.lean ====
section
/-! SUPPORT. Statements about every instruction, one lemma per constructor. -/

/-- The word of an instruction has the fixed bits of its row: `(c AND mask) = match` (R125). -/
def Sys2Proof.Laws.RowBits.Statement (i : Sys2Proof.Instr) : Prop :=
  Sys2Proof.encode i &&& Sys2Proof.rowMask (Sys2Proof.opcode i) = Sys2Proof.rowMatch (Sys2Proof.opcode i)

namespace Sys2Proof.Laws.RowBits

theorem nop : Statement .nop := by unfold Statement; decide

theorem zero (rd : VReg) : Statement (.zero rd) := by unfold Statement; cases rd <;> decide

theorem load (rd : VReg) : Statement (.load rd) := by unfold Statement; cases rd <;> decide

theorem loadp_word : ∀ d n : BitVec 4,
    wordWith .loadp d 0 0 n &&& rowMask .loadp = rowMatch .loadp := by decide +kernel

theorem loadp (rd : VReg) (n : BitVec 4) : Statement (.loadp rd n) := loadp_word ..

theorem comp_word : ∀ d a b : BitVec 4,
    wordWith .comp d a b 0 &&& rowMask .comp = rowMatch .comp := by decide +kernel

theorem comp (rd : VReg) (rs1 rs2 : Src) : Statement (.comp rd rs1 rs2) := comp_word ..

theorem aesr_word : ∀ d a b : BitVec 4,
    wordWith .aesr d a b 0 &&& rowMask .aesr = rowMatch .aesr := by decide +kernel

theorem aesr (rd : VReg) (rs1 rs2 : Src) : Statement (.aesr rd rs1 rs2) := aesr_word ..

theorem aesrl_word : ∀ d a b : BitVec 4,
    wordWith .aesrl d a b 0 &&& rowMask .aesrl = rowMatch .aesrl := by decide +kernel

theorem aesrl (rd : VReg) (rs1 rs2 : Src) : Statement (.aesrl rd rs1 rs2) := aesrl_word ..

theorem linit : Statement .linit := by unfold Statement; decide

theorem lstep : Statement .lstep := by unfold Statement; decide

theorem lred (rd : VReg) : Statement (.lred rd) := by unfold Statement; cases rd <;> decide

theorem fin_word : ∀ a : BitVec 4, wordWith .fin 0 a 0 0 &&& rowMask .fin = rowMatch .fin := by decide +kernel

theorem fin (rs1 : Src) : Statement (.fin rs1) := fin_word ..

theorem extr_word : ∀ a : BitVec 4, wordWith .extr 0 a 0 0 &&& rowMask .extr = rowMatch .extr := by
  decide +kernel

theorem extr (rs1 : Src) : Statement (.extr rs1) := extr_word ..

theorem hash : Statement .hash := by unfold Statement; decide

end Sys2Proof.Laws.RowBits
end

