-- ==== Sys2Proof/Tests/Slice0.lean ====
section
/-! SUPPORT. Tests: words decoded by hand, the vectors of spec/95_test_vectors.md, and for every obligation with
hypotheses a state that meets them. -/

namespace Sys2Proof.Tests

-- One theorem at a time: each concurrent elaboration thread reserves its own stack.
set_option Elab.async false

open Sys2Proof.Machine Sys2Proof.Safety

/-! ### Helpers -/

/-- `pat(n)` at 0x1000: the byte at `0x1000 + j` is `j mod 256` (95, Conventions). -/
def pat (n : Nat) : Memory :=
  ((List.range n).filter fun j => j % 256 != 0).map fun j => (0x1000 + j, BitVec.ofNat 8 j)

/-- The state after reset with salt set B (95, Conventions), `pat(n)` in memory, PTR = 0x1000 and LEN = n. -/
def start (n : Nat) : State :=
  { State.reset with
    salt1 := 0x0f0e0d0c0b0a09080706050403020100
    salt2 := 0x1f1e1d1c1b1a19181716151413121110
    salt3 := 0x2f2e2d2c2b2a29282726252423222120
    mem := pat n, ptr := 0x1000, len := BitVec.ofNat 64 n }

/-- The bytes `a0 … af` at the top of the address space, PTR at `p` (95, P5). -/
def top (p : DWord) : State :=
  { start 0 with
    ptr := p
    mem := (List.range 16).map fun j => (2 ^ 64 - 16 + j, BitVec.ofNat 8 (0xa0 + j)) }

/-- V1 = `00 … 0f`, V2 = `ff ×16` (95, §2.2). -/
def operands : State :=
  { start 0 with
    v := { VRegs.zero with v1 := 0x0f0e0d0c0b0a09080706050403020100, v2 := BitVec.allOnes 128 } }

/-- What `f` shows of the state after accepting the word `w` and one step. -/
def ran {α : Type} (f : State → α) (s : State) (w : Nat) : Option α :=
  match step (s.withFetchWord 32 w) with
  | .next t => some (f t)
  | .fault _ => none
  | .refused _ => none

/-- What `f` shows of the state after one step. -/
def stepped {α : Type} (f : State → α) (s : State) : Option α :=
  match step s with
  | .next t => some (f t)
  | .fault _ => none
  | .refused _ => none

/-- What a fault leaves: CAUSE, FAULT_ADDR, PTR, STATUS. -/
def faultView (s : State) : Cause × DWord × DWord × DWord := (s.cause, s.faultAddr, s.ptr, statusWord s)

/-! ### Well-formedness and decoding -/

theorem test_ill_formed_loadp : (Instr.loadp .tmp 0#4).wellFormed = false := by decide

theorem test_ill_formed_loadp_is_not_decoded : decode (encode (.loadp .tmp 0#4)) = .error .illegalOperand := by
  decide

/-- RSV N RS2 RS1 RD OP, written out from the tables of R124 and R132. -/
theorem test_decode_nop : decode 0b00000000_0000_0000_0000_0000_00000000#32 = .ok .nop := by decide

theorem test_decode_zero : decode 0b00000000_0000_0000_0000_1000_00000001#32 = .ok (.zero .acc) := by decide

theorem test_decode_load : decode 0b00000000_0000_0000_0000_1001_00000010#32 = .ok (.load .tmp) := by decide

theorem test_decode_loadp : decode 0b00000000_1111_0000_0000_0000_00000011#32 = .ok (.loadp .v0 15#4) := by
  decide

theorem test_decode_comp : decode 0b00000000_0000_0010_0001_0000_00000100#32 =
    .ok (.comp .v0 (.reg .v1) (.reg .v2)) := by decide

theorem test_decode_aesr : decode 0b00000000_0000_1101_1000_1001_00000101#32 =
    .ok (.aesr .tmp (.reg .acc) .salt1) := by decide

theorem test_decode_aesrl : decode 0b00000000_0000_1111_1100_1001_00000110#32 =
    .ok (.aesrl .tmp .zr .salt3) := by decide

theorem test_decode_linit : decode 0b00000000_0000_0000_0000_0000_00001000#32 = .ok .linit := by decide

theorem test_decode_lstep : decode 0b00000000_0000_0000_0000_0000_00001001#32 = .ok .lstep := by decide

theorem test_decode_lred : decode 0b00000000_0000_0000_0000_0111_00001010#32 = .ok (.lred .v7) := by decide

theorem test_decode_fin : decode 0b00000000_0000_0000_1000_0000_00001011#32 = .ok (.fin (.reg .acc)) := by decide

theorem test_decode_extr : decode 0b00000000_0000_0000_1110_0000_00001100#32 = .ok (.extr .salt2) := by decide

theorem test_decode_hash : decode 0b00000000_0000_0000_0000_0000_00010000#32 = .ok .hash := by decide

/-- 95, V16. -/
theorem test_decode_unassigned : decode 0x00000007#32 = .error .illegalOpcode := by decide

/-- 95, V15, V17, V18, V19, V20, A18, L7. -/
theorem test_decode_illegal_operands :
    [0x00000903#32, 0x00000D01#32, 0x01000000#32, 0x000A0804#32, 0x00001902#32, 0x00021C04#32,
      0x00000108#32].all (fun c => decode c == .error .illegalOperand) = true := by decide

/-- No two rows of R125 overlap. -/
theorem test_rows_do_not_overlap :
    [Opcode.nop, .zero, .load, .loadp, .comp, .aesr, .aesrl, .linit, .lstep, .lred, .fin, .extr, .hash].Pairwise
      (fun a b => rowMatch a &&& rowMask b &&& rowMask a ≠ rowMatch b &&& rowMask a &&& rowMask b) := by
  decide

/-- R132. -/
theorem test_assemble_worked_lines :
    (["nop", "zero acc", "load tmp", "loadp tmp, #4", "comp acc, acc, tmp", "aesr tmp, acc, salt1",
      "aesr tmp, tmp, salt2", "aesrl tmp, tmp, salt3", "linit", "lstep", "lred acc", "fin acc", "extr tmp",
      "hash"].map fun l => (assembleLine l.toList).map fun is => is.map encode) =
    [0x00000000#32, 0x00000801, 0x00000902, 0x00400903, 0x00098804, 0x000D8905, 0x000E9905, 0x000F9906, 0x00000008,
      0x00000009, 0x0000080A, 0x0000800B, 0x0000900C, 0x00000010].map fun w => some [w] := by decide +kernel

/-- R129, R131. -/
theorem test_assemble_rejects_and_expands :
    assembleLine "loadp v9, #0x10".toList = none ∧ assembleLine "zero salt1".toList = none ∧
    assembleLine " fold v8 , v1 ; x".toList = some [.comp .acc (.reg .acc) (.reg .v1)] := by decide +kernel

/-! ### The AES primitive -/

/-- Multiplication in GF(2^8) modulo 0x11B, `n` bits of `y` at most (R192). -/
def gfMul (x y : Byte) : Nat → Byte
  | 0 => 0
  | n + 1 => (if y.getLsbD 0 then x else 0) ^^^ gfMul (gfDouble x) (y >>> 1) n

/-- The affine map of R192. -/
def sboxAffine (b : Byte) : Byte :=
  b ^^^ b.rotateRight 4 ^^^ b.rotateRight 5 ^^^ b.rotateRight 6 ^^^ b.rotateRight 7 ^^^ 0x63#8

/-- The multiplicative inverse as `x^254` (R192). -/
def gfInverse (x : Byte) : Byte :=
  let m := fun a b => gfMul a b 8
  let x2 := m x x
  let x3 := m x2 x
  let x12 := m (m x3 x3) (m x3 x3)
  let x15 := m x12 x3
  let x240 := (fun y => m (m y y) (m y y)) (m (m x15 x15) (m x15 x15))
  m x240 (m x12 x2)

/-- R192: the table is the affine image of the inverse. -/
theorem test_sbox_is_affine_of_inverse : ∀ x : Byte, sbox x = sboxAffine (gfInverse x) ∧
    (x ≠ 0 → gfMul x (gfInverse x) 8 = 1) := by decide +kernel

/-- 95 §1.2, FIPS-197 Appendix B, round 1. -/
theorem test_round_fips :
    aesRound 0x0848f8e92a8dc69a2be2f4a0bee33d19 0x05766c2a3939a323b12c548817fefaa0 =
      0x49506a0243ea5b6b2b359f68f27f9ca4 := by decide +kernel

/-- 95 §2.2, A6, A7: the operands do not commute (R197). -/
theorem test_compress_not_commutative :
    compress 0x0f0e0d0c0b0a09080706050403020100 (BitVec.allOnes 128) = 0xa3de63d89ea2264faecc92d3baa39595 ∧
    compress (BitVec.allOnes 128) 0x0f0e0d0c0b0a09080706050403020100 = 0x19181b1a1d1c1f1e1110131215141716 := by
  decide +kernel

/-- 95 §2.2, A8, A9: compress is not associative (R197). -/
theorem test_compress_not_associative :
    compress (compress 0x0f0e0d0c0b0a09080706050403020100 (BitVec.allOnes 128)) 0x80 =
      0xd4c0e3fcb55c93ebb3ac40271f0ff035 ∧
    compress 0x0f0e0d0c0b0a09080706050403020100 (compress (BitVec.allOnes 128) 0x80) =
      0x4a378a31774bcfa647257b3a534a7cfc := by decide +kernel

/-! ### One step of each command -/

/-- 95, V1. -/
theorem test_nop : ran (fun t => (statusWord t, t.ptr, t.lastCmd)) (start 16) 0x0 = some (2, 0x1000, 0) := by
  decide +kernel

/-- 95, V3. -/
theorem test_zero : ran (fun t => (t.v.v1, t.v.v2)) operands 0x101 = some (0, BitVec.allOnes 128) := by
  decide +kernel

/-- 95, V8: an unaligned load. -/
theorem test_load : ran (fun t => (t.v.v1, t.ptr)) { start 32 with ptr := 0x1003 } 0x102 =
    some (0x1211100f0e0d0c0b0a09080706050403, 0x1013) := by decide +kernel

/-- 95, V9, V10. -/
theorem test_load_at_top : ran (fun t => (t.v.tmp, t.ptr)) (top 0xFFFFFFFFFFFFFFF0) 0x902 =
      some (0xafaeadacabaaa9a8a7a6a5a4a3a2a1a0, 0) ∧
    ran faultView (top 0xFFFFFFFFFFFFFFF8) 0x902 =
      some (.addrWrap, 0xFFFFFFFFFFFFFFF8, 0xFFFFFFFFFFFFFFF8, 4) := by decide +kernel

/-- 95, V11, V12. -/
theorem test_loadp_at_top : ran (fun t => (t.v.tmp, t.ptr)) (top 0xFFFFFFFFFFFFFFF8) 0x800903 =
      some (0xafaeadacabaaa9a8, 0) ∧
    ran faultView { top 0xFFFFFFFFFFFFFFF8 with tailMode := true } 0x800903 =
      some (.addrWrap, 0xFFFFFFFFFFFFFFF8, 0xFFFFFFFFFFFFFFF8, 4) := by decide +kernel

/-- `pat(20)` with only `[0x1000, 0x1014)` admitted, PTR = 0x1010 (95, V13, V14). -/
def shortBuffer : State :=
  { start 20 with ptr := 0x1010, regions := [⟨0, 0x1000, .refusing⟩, ⟨0x1014, 2 ^ 64, .refusing⟩] }

/-- 95, V13, V14. -/
theorem test_loadp_over_read : ran faultView { shortBuffer with tailMode := true } 0x400903 =
      some (.accessFault, 0x1010, 0x1010, 4) ∧
    ran (fun t => (t.v.tmp, t.ptr)) shortBuffer 0x400903 = some (0x13121110, 0x1014) := by decide +kernel

/-- 95, A15: the destination is a source. -/
theorem test_comp : ran (·.v.v1) operands 0x21104 = some 0xa3de63d89ea2264faecc92d3baa39595 := by decide +kernel

/-- 95, A17 with salt set B. -/
theorem test_aesr : ran (·.v.v0) operands 0xDC005 = some 0x6c6d6e6f68696a6b6465666760616263 := by decide +kernel

/-- 95, A13: MixColumns stays in the last round. -/
theorem test_aesrl : ran (·.v.v0) operands 0x21006 = some 0xa3de63d89ea2264faecc92d3baa39595 := by
  decide +kernel

/-- 95, L1. -/
theorem test_linit : ran (fun t => (t.v.v0, t.v.v7, t.v.acc, t.ptr)) (start 256) 0x8 =
    some (0x0f0e0d0c0b0a09080706050403020100, 0x7f7e7d7c7b7a79787776757473727170, 0, 0x1080) := by
  decide +kernel

/-- 95, L4. -/
theorem test_linit_refused_block :
    ran (fun t => (faultView t, t.v)) { start 128 with regions := [⟨0x1030, 16, .refusing⟩] } 0x8 =
      some ((.accessFault, 0x1030, 0x1000, 4), VRegs.zero) := by decide +kernel

/-- 42, R223, example. -/
theorem test_lstep : ran (fun t => (t.v.v0, t.v.v7, t.ptr)) { start 0 with ptr := 0x1000 } 0x9 =
    some (0x63636363636363636363636363636363, 0x63636363636363636363636363636363, 0x1080) := by decide +kernel

/-- 95, L3. -/
theorem test_lred : ran (fun t => (t.v.acc, t.v.v0)) (start 0) 0x80A =
    some (0xdededededededededededededededede, 0) := by decide +kernel

/-- 95 §2.4, `fin zr` with salt set B. -/
theorem test_fin : ran (fun t => (t.result, t.v)) (start 0) 0xC00B = some (0xc889ce26f0ff6dd1, VRegs.zero) := by
  decide +kernel

/-- 95 §2.4. -/
theorem test_extr : ran (·.result) operands 0x100C = some 0x0706050403020100 ∧
    ran (·.result) operands 0xE00C = some 0x1716151413121110 := by decide +kernel

/-- 95, P1. -/
theorem test_hash_20 : ran (fun t => (t.result, t.v.acc, t.v.tmp, t.ptr, statusWord t)) (start 20) 0x10 =
    some (0x317628b5f3bad688, 0x8e5775a677e033e8119415fb6fc3cc01, 0x13121110, 0x1014, 2) := by decide +kernel

/-- 95 §2.5.1, L = 133. -/
theorem test_hash_133 : ran (fun t => (t.result, t.v.acc)) (start 133) 0x10 =
    some (0x832653d40f5b317e, 0xd60ff3a8f669728a0593d631281cf6ad) := by decide +kernel

/-- 95, H2: the effects of block 0 stay. -/
theorem test_hash_fault : ran (fun t => (faultView t, t.v.acc, t.v.tmp, t.result))
    { shortBuffer with ptr := 0x1000, tailMode := true } 0x10 =
      some ((.accessFault, 0x1010, 0x1010, 4), 0x6c6d6e6f68696a6b6465666760616263,
        0x0f0e0d0c0b0a09080706050403020100, 0) := by decide +kernel

/-- R279: the step counts at L = 0, 127, 128, 1023, 1025 (LSTEPs, serial folds and tail included). -/
theorem test_hash_step_counts :
    [0, 127, 128, 1023, 1025].map (fun n => (hashProgram (hashCounters n)).length) = [2, 18, 3, 25, 12] := by
  decide

/-- 95 §2.5.2: the tree is not the serial fold (R228). -/
theorem test_tree_is_not_serial : hashAcc (fun j => BitVec.ofNat 8 j) 128 ≠ serialAcc (fun j => BitVec.ofNat 8 j) 128 := by
  decide +kernel

/-! ### The register block -/

/-- A host write at offset `o`, 8 bytes. -/
def written (s : State) (o : Nat) (w : DWord) : State :=
  { s with agenda := [.host (.write (s.gxhBase + BitVec.ofNat 64 o) 8 w)] }

/-- The block with its registers at address 0x4000_0000. -/
def placed (s : State) : State := { s with gxhBase := 0x40000000 }

/-- 95, P4 step 2: a command is turned away while FAULT is set. -/
theorem test_cmd_rejected : stepped (fun t => (statusWord t, t.lastCmd))
    (written (placed { start 0 with fault := true, lastCmd := 0x10 }) 0x40 0) = some (0xC, 0x10) := by decide +kernel

/-- 95, P4 step 3. -/
theorem test_status_write : stepped (fun t => (statusWord t, t.cause))
    (written (placed { start 0 with fault := true, cmdErr := true, cause := .accessFault }) 0x10 0xC) =
      some (0, .accessFault) := by decide +kernel

/-- 95, P6 step 4: STATUS and the interrupt line after a HASH of nothing. -/
theorem test_irq : ran (fun t => (statusWord t, irqLine t, t.result)) { start 0 with ieDone := true } 0x10 =
    some (0x12, true, 0xc889ce26f0ff6dd1) := by decide +kernel

/-- 95, P6 step 2. -/
theorem test_read_id : stepped (·.readData)
    { placed (start 0) with agenda := [.host (.read 0x40000000 8)] } = some 0x0000000747584831 := by decide +kernel

/-- R57: `low64` of V1 is at 0x110; a 32-bit write changes four bytes. -/
theorem test_vreg_window : stepped (·.readData)
      { placed operands with agenda := [.host (.read 0x40000110 8)] } = some 0x0706050403020100 ∧
    stepped (·.v.v1)
      { placed operands with agenda := [.host (.write 0x40000114 4 0xaabbccdd)] } =
        some 0x0f0e0d0c0b0a0908aabbccdd03020100 := by decide +kernel

/-- R43: a read of PTR while LOAD runs may see the value before or after; LASTCMD has one value. -/
theorem test_busy_read_instants : (commandAhead ((start 16).withFetchWord 32 0x902)).map (·.ptr) = [0x1010#64] := by
  decide +kernel

/-- R43: a soft reset that comes before the engine's work leaves nothing ahead; a byte written before it is loaded
is in what lies ahead. -/
theorem test_busy_read_follows_the_agenda :
    commandAhead { (placed (start 16)).withFetchWord 32 0x902 with
      agenda := [.host (.write 0x40000008 8 8), .tick] } = [] ∧
    (commandAhead { (start 0).withFetchWord 32 0x902 with
      agenda := [.memWrite 0x1000 0] }).map (fun sn => (sn.ptr, sn.v.tmp)) = [(0x1000, 0), (0x1010, 0)] := by
  decide +kernel

/-- R35: single steps of HASH. The first does the range check, the second clears ACC. -/
theorem test_hash_tick : stepped (fun t => (t.counters, t.seq))
      { (start 20).withFetchWord 32 0x10 with agenda := [.tick] } = some (some ⟨1, 4, 0, 0⟩, .exec 0x10#32 0) := by
  decide +kernel

/-! ### The hypotheses of the obligations can be met -/

theorem test_witness_DecodeEncodeRoundTrip :
    (Instr.loadp .tmp 1#4).wellFormed = true ∧ (Instr.loadp .v0 15#4).wellFormed = true := by decide

theorem test_witness_DecodedWordIsItsEncoding : decode 0x00F00003#32 = .ok (.loadp .v0 15#4) := by decide

theorem test_witness_OperandMap : (regIndex (laneReg 7)).toNat = 7 ∧ (0#4).toNat ≤ 9 ∧ (9#4).toNat ≤ 9 ∧ 10 ≤ (10#4).toNat ∧ 10 ≤ (15#4).toNat := by
  decide

theorem at_command (s : State) (w : Nat) :
    AtCommand (s.withFetchWord 32 w) (BitVec.ofNat 32 (w % 2 ^ 32)) := ⟨rfl, ⟨0, rfl⟩, rfl⟩

theorem test_witness_UnassignedOpcodeFaults :
    AtCommand (State.reset.withFetchWord 32 0x07) 0x07#32 ∧ (BitVec.extractLsb' 0 8 0x07#32).toNat = 0x07 ∧
    AtCommand (State.reset.withFetchWord 32 0x0D) 0x0D#32 ∧ 0x0D ≤ (BitVec.extractLsb' 0 8 0x0D#32).toNat ∧
    AtCommand (State.reset.withFetchWord 32 0xFF) 0xFF#32 ∧ 0x11 ≤ (BitVec.extractLsb' 0 8 0xFF#32).toNat :=
  ⟨at_command _ _, by decide, at_command _ _, by decide, at_command _ _, by decide⟩

theorem test_witness_IllegalOperandFaults :
    AtCommand (State.reset.withFetchWord 32 0x01000000) 0x01000000#32 ∧
    opcodeOf (fieldsOf 0x01000000#32).op = some .nop ∧ ¬ UnusedZero .nop (fieldsOf 0x01000000#32) ∧
    AtCommand (State.reset.withFetchWord 32 0x000A0804) 0x000A0804#32 ∧
    opcodeOf (fieldsOf 0x000A0804#32).op = some .comp ∧ ¬ OperandsLegal .comp (fieldsOf 0x000A0804#32) ∧
    AtCommand (State.reset.withFetchWord 32 0x00000903) 0x00000903#32 ∧
    opcodeOf (fieldsOf 0x00000903#32).op = some .loadp ∧ ¬ OperandsLegal .loadp (fieldsOf 0x00000903#32) ∧
    AtCommand (State.reset.withFetchWord 32 0x00000901) 0x00000901#32 ∧
    opcodeOf (fieldsOf 0x00000901#32).op = some .zero ∧ UnusedZero .zero (fieldsOf 0x00000901#32) ∧
    OperandsLegal .zero (fieldsOf 0x00000901#32) :=
  ⟨at_command _ _, by decide, by decide, at_command _ _, by decide, by decide, at_command _ _, by decide, by decide,
    at_command _ _, by decide, by decide, by decide⟩

theorem test_witness_AssemblerEmitsLegalCommands :
    assembleLine "loadp tmp, #15".toList = some [.loadp .tmp 15#4] := by decide +kernel

theorem test_witness_StepRunsDecodedCommand :
    AtCommand (State.reset.withFetchWord 32 0x902) 0x902#32 ∧ decode 0x902#32 = .ok (.load .tmp) ∧
    decodeTableWord 32 0x902 = some (.load .tmp) ∧ Instr.load .tmp ≠ .hash ∧
    (State.reset.withFetchWord 32 0x902).seq = .exec 0x902#32 0 ∧
    (State.reset.withFetchWord 32 0x902).counters = none ∧
    State.reset.agenda = [] ∧ State.reset.seq = .idle :=
  ⟨at_command _ _, by decide, by decide, by decide, rfl, rfl, rfl, rfl⟩

theorem test_witness_LoadReadsOneBlock :
    Ready (.load .tmp) (start 16) ∧ Ready (.load .tmp) (top 0xFFFFFFFFFFFFFFF0) := by decide +kernel

theorem test_witness_LoadpReadsPartialBlock :
    Ready (.loadp .tmp 1#4) (start 16) ∧ Ready (.loadp .tmp 4#4) shortBuffer ∧
    Ready (.loadp .tmp 8#4) (top 0xFFFFFFFFFFFFFFF8) := by decide +kernel

theorem test_witness_TailModesLoadTheSameVector :
    Ready (.loadp .tmp 15#4) { start 16 with tailMode := true } := by decide +kernel

theorem test_witness_AesCommandsWriteTheRound :
    (Instr.aesrl .v0 .zr .salt3 = .comp .v0 .zr .salt3 ∨ Instr.aesrl .v0 .zr .salt3 = .aesr .v0 .zr .salt3 ∨
      Instr.aesrl .v0 .zr .salt3 = .aesrl .v0 .zr .salt3) := by decide

/-- LinitLoadsTheLanes, LstepFoldsTheLanes. -/
theorem test_witness_LanesReady : Ready .linit (start 128) ∧ Ready .lstep (start 128) ∧
    Ready .linit (top 0xFFFFFFFFFFFFFF80) := by decide +kernel

theorem test_witness_HashComputesTheHash :
    Ready .hash (start 0) ∧ Ready .hash { shortBuffer with ptr := 0x1000 } ∧
    Ready .hash { start 20 with tailMode := true } ∧ Ready .hash (start 128) ∧
    Ready .hash { top 0xFFFFFFFFFFFFFFF0 with len := 16 } := by decide +kernel

theorem test_witness_HashOfNothing : (start 0).len = 0 := by decide

/-- The 20 bytes of `start 20` elsewhere, other registers, the other tail mode. -/
def elsewhere : State :=
  { start 20 with
    ptr := 0x2000, tailMode := true, v := { VRegs.zero with acc := 7 }
    mem := ((List.range 20).filter fun j => j != 0).map fun j => (0x2000 + j, BitVec.ofNat 8 j) }

theorem test_witness_HashDependsOnlyOnItsInput :
    Ready .hash (start 20) ∧ Ready .hash elsewhere ∧ (start 20).len = elsewhere.len ∧
    (start 20).salt1 = elsewhere.salt1 ∧ (start 20).salt2 = elsewhere.salt2 ∧ (start 20).salt3 = elsewhere.salt3 ∧
    ∀ j < (start 20).len.toNat, inputByte (start 20) j = inputByte elsewhere j := by decide +kernel

theorem test_witness_ShortHashIsTheSerialFold :
    Ready .hash (start 127) ∧ (start 127).len.toNat < 128 := by decide +kernel

theorem test_witness_ZeroPaddingKeepsTheHash :
    Ready .hash (start 5) ∧ Ready .hash { start 5 with len := 16 } ∧ 0 < (start 5).len.toNat % 16 ∧
    ((start 5).len.toNat / 16 + 1) % 8 ≠ 0 ∧ (16 : DWord).toNat = 16 * ((start 5).len.toNat / 16 + 1) ∧
    (∀ j < (start 5).len.toNat, inputByte { start 5 with len := 16 } j = inputByte (start 5) j) ∧
    ∀ j < 16, (start 5).len.toNat ≤ j → inputByte { start 5 with len := 16 } j = 0 := by decide +kernel

theorem test_witness_EveryInputByteReachesAcc :
    Ready .hash (start 20) ∧ Ready .hash { start 20 with mem := pat 19 } ∧ 19 < (start 20).len.toNat ∧
    inputByte (start 20) 19 ≠ inputByte { start 20 with mem := pat 19 } 19 ∧
    ∀ j < (start 20).len.toNat, j ≠ 19 →
      inputByte (start 20) j = inputByte { start 20 with mem := pat 19 } j := by decide +kernel

/-- HASH over the short buffer in over-read mode (95, H2). -/
def overRead : State := { shortBuffer with ptr := 0x1000, tailMode := true }

theorem test_witness_HashFaultsAtItsFirstRefusedLine :
    overRead.ptr.toNat + footprint .hash overRead ≤ Config.addressSpace ∧
    Answering overRead overRead.ptr.toNat (footprint .hash overRead) ∧
    ¬ Readable overRead overRead.ptr.toNat (footprint .hash overRead) := by decide +kernel

theorem test_witness_HashStepsMatchTheWholeRun :
    ((start 20).withFetchWord 32 0x10).agenda = [] ∧
    ((start 20).withFetchWord 32 0x10).seq = .exec (encode .hash) 0 ∧
    ((start 20).withFetchWord 32 0x10).counters = none := by decide

theorem test_witness_FootprintPastTheTopFaults :
    (Instr.load .tmp).wellFormed = true ∧
    Config.addressSpace <
      (top 0xFFFFFFFFFFFFFFF1).ptr.toNat + footprint (.load .tmp) (top 0xFFFFFFFFFFFFFFF1) ∧
    Config.addressSpace < (top 0xFFFFFFFFFFFFFFF0).ptr.toNat +
      footprint .hash { top 0xFFFFFFFFFFFFFFF0 with len := 17 } := by decide +kernel

theorem test_witness_RefusedLoadFaults :
    shortBuffer.ptr.toNat + footprint (.load .tmp) shortBuffer ≤ Config.addressSpace ∧
    Answering shortBuffer shortBuffer.ptr.toNat (footprint (.load .tmp) shortBuffer) ∧
    ¬ Readable shortBuffer shortBuffer.ptr.toNat (footprint (.load .tmp) shortBuffer) ∧
    (5#4 ≠ 0#4 ∧ shortBuffer.ptr.toNat + footprint (.loadp .tmp 5#4) shortBuffer ≤ Config.addressSpace ∧
      Answering shortBuffer shortBuffer.ptr.toNat (footprint (.loadp .tmp 5#4) shortBuffer) ∧
      ¬ Readable shortBuffer shortBuffer.ptr.toNat (footprint (.loadp .tmp 5#4) shortBuffer)) := by decide +kernel

/-- Block 3 of the lanes refused (95, L4). -/
def refusedBlock : State := { start 128 with regions := [⟨0x1030, 16, .refusing⟩] }

theorem test_witness_RefusedLaneBlockFaults :
    refusedBlock.ptr.toNat + 128 ≤ Config.addressSpace ∧ Answering refusedBlock refusedBlock.ptr.toNat 128 ∧
    ¬ Readable refusedBlock refusedBlock.ptr.toNat 128 := by decide +kernel

/-- A block that recorded a fault and is idle. -/
def faulted : State := { start 0 with fault := true, cause := .illegalOpcode }

theorem faulted_inv : Inv faulted where
  memory := by unfold MemoryCanonical; decide +kernel
  idle := fun _ => ⟨rfl, rfl, rfl, rfl⟩
  counters := fun _ h => nomatch h
  running := fun _ _ h => nomatch h
  faultCause := fun _ h => nomatch h

theorem test_witness_FaultsDoNotNest : Inv faulted ∧ faulted.fault = true ∧ step faulted = .next faulted :=
  ⟨faulted_inv, rfl, rfl⟩

/-- The bytes from 0x1010 on are never answered; HASH is about to start. -/
def unanswered : State := { (start 20).withFetchWord 32 0x10 with regions := [⟨0x1010, 16, .silent⟩] }

theorem test_witness_UnansweredReadKeepsTheBlockBusy :
    (unanswered.ptr.toNat + footprint .linit unanswered ≤ Config.addressSpace ∧
      (∀ k < footprint .linit unanswered, touches unanswered .sideEffect (unanswered.ptr.toNat + k) 1 = false) ∧
      ∃ k < footprint .linit unanswered, touches unanswered .silent (unanswered.ptr.toNat + k) 1 = true) ∧
    unanswered.agenda = [] ∧ unanswered.seq = .exec 0x10#32 0 ∧
    unanswered.ptr.toNat + footprint .hash unanswered ≤ Config.addressSpace ∧
    Readable unanswered unanswered.ptr.toNat (footprint .hash unanswered) ∧
    (∀ k < footprint .hash unanswered, touches unanswered .sideEffect (unanswered.ptr.toNat + k) 1 = false) ∧
    ∃ k < footprint .hash unanswered, touches unanswered .silent (unanswered.ptr.toNat + k) 1 = true := by
  decide +kernel

/-- A device register at 0x1000. -/
def device : State := { start 16 with regions := [⟨0x1000, 8, .sideEffect⟩] }

theorem test_witness_OnlySideEffectFootprintsAreRefused :
    (Instr.load .tmp).wellFormed = true ∧ exec (.load .tmp) device = .refused .readSideEffect := ⟨rfl, rfl⟩

theorem test_witness_CommandsNeverWriteMemory : exec .nop (start 0) = .next (complete (start 0)) := rfl

theorem test_witness_SaltsAreConstant : step (start 0) = .next (start 0) := rfl

/-- A block that runs NOP. -/
def running : State := (start 0).withFetchWord 32 0

theorem test_witness_CmdAcceptance : busy (start 0) = false ∧ (start 0).fault = false ∧ busy running = true ∧
    faulted.fault = true := by decide

/-- BusyWritesAreRejected at the first and last offset of each of its ranges. -/
theorem test_witness_BusyWritesAreRejected : busy running = true ∧
    [0x08, 0x28, 0x30, 0x40, 0x100, 0x1F8].all (· % 8 == 0) = true ∧
    [0x08, 0x0C, 0x28, 0x34, 0x40, 0x100, 0x1FC].all (· % 4 == 0) = true ∧
    [0x00, 0x10, 0x18, 0x20, 0x38, 0x48, 0xF8].all (· % 8 == 0) = true ∧
    [0x00, 0x04, 0x14, 0x18, 0x24, 0x3C, 0x44, 0x48, 0xFC].all (· % 4 == 0) = true ∧ busy (start 0) = false ∧
    (0#64).getLsbD 3 = false ∧ (8#64).getLsbD 3 = true := by decide

/-- StatusWriteOneToClear, SoftAndHardResetAgree. -/
theorem test_witness_ControlWrites : ((4 : Nat) = 4 ∨ (4 : Nat) = 8) ∧ (8#64).getLsbD 3 = true := by decide

theorem test_witness_ShiftRowsByteOrder : 0 < 16 ∧ 15 < 16 := by decide

/-- FaultAndCompletionEntry with both interrupts enabled. -/
theorem test_witness_FaultAndCompletionEntry :
    ({ start 0 with ieDone := true, ieFault := true } : State).ieDone = true ∧
    ({ start 0 with ieDone := true, ieFault := true } : State).ieFault = true := by decide

/-- CtrlWriteThenRead, and RegisterReadsWhileIdle at the first and the last reserved offset and at both halves. -/
theorem test_witness_IdleBlock : busy (start 0) = false ∧ (7#64).getLsbD 3 = false ∧ 0x50 % 8 = 0 ∧ 0xF8 % 8 = 0 ∧
    0xF8 < 0x100 ∧ 0 % 8 = 0 ∧ 0 + 8 ≤ 8 ∧ 4 % 4 = 0 ∧ 4 + 4 ≤ 8 := by decide

theorem test_witness_PointerAndLengthWrites : busy (start 0) = false ∧ 4 % 4 = 0 ∧ 4 + 4 ≤ 8 ∧ 0 + 8 ≤ 8 := by decide

/-- VregWindowWrites, VregWindowReads: the first and the last register, the first and the last ignored slot. -/
theorem test_witness_VregWindow : busy (start 0) = false ∧ 12 % 4 = 0 ∧ 12 + 4 ≤ 16 ∧ 8 % 8 = 0 ∧ 8 + 8 ≤ 16 ∧
    (regIndex .tmp).toNat = 9 ∧ (regIndex .v0).toNat = 0 ∧ 10 ≤ 10 ∧ 10 ≤ 15 ∧ 15 < 16 := by decide

theorem running_inv : Inv running where
  memory := by unfold MemoryCanonical; decide +kernel
  idle := fun h => nomatch h
  counters := fun _ h => nomatch h
  running := fun _ _ h => by cases h; exact ⟨rfl, rfl, fun _ => rfl⟩
  faultCause := fun h => nomatch h

/-- HASH of 20 bytes, accepted, one internal step to come. -/
def launching : State := { (start 20).withFetchWord 32 0x10 with agenda := [.tick] }

/-- BusyReadsDrawAnInstant: reads of both widths and halves, a command with an instant ahead that one step comes to,
and a step between two busy states. -/
theorem test_witness_BusyReadsDrawAnInstant : Inv running ∧ busy running = true ∧ 0 % 8 = 0 ∧ 0 + 8 ≤ 8 ∧
    4 % 4 = 0 ∧ 4 + 4 ≤ 8 ∧ snapshot running ∈ commandAhead running ∧ ComesTo running 1 1 (complete running) ∧
    busy launching = true ∧ stepped busy launching = some true ∧ (regIndex .tmp).toNat = 9 := by
  refine ⟨running_inv, rfl, rfl, by decide, rfl, by decide, by decide +kernel, ?_, rfl, by decide +kernel, rfl⟩
  refine ⟨rfl, fun m hm => ?_, .inr (.inl rfl)⟩
  obtain rfl : m = 0 := by omega
  exact ⟨_, rfl, rfl⟩

theorem test_witness_UnsupportedAccessesAreRefused :
    ((2 : Nat) ≠ 4 ∧ (2 : Nat) ≠ 8) ∧ 0x12C % 8 ≠ 0 ∧ 0x200 < 0x1FC + 8 ∧ 0x1FC < 2 ^ 64 := by decide

/-- R307: the host's clear of DONE comes before the completion that sets it in the same cycle. -/
theorem test_witness_SameCycleEvents : busy running = true ∧ (8#64).getLsbD 3 = true ∧
    stepped (fun t => (busy t, t.done))
      { placed running with agenda := [.sameCycle (.write 0x40000010 8 0x1F)] } = some (false, true) := by
  decide +kernel

theorem test_witness_RacedByteIsOldOrNew : Memory.wf (start 20).mem = true ∧ (start 20).raced = [] := by
  decide +kernel

theorem test_witness_StepKeepsTheInvariant : Inv faulted ∧ step faulted = .next faulted := ⟨faulted_inv, rfl⟩

end Sys2Proof.Tests
end

section
/-! SUPPORT. What one step can do, said once: how a host write, a command and an internal step of the engine can
end, and the induction that carries a property over every step. -/

namespace Sys2Proof.Proofs

open Sys2Proof.Machine Sys2Proof.Safety

/-! ### Host writes -/

/-- Everything a host write can do to the state (R41 to R57). -/
inductive HostWrote (s : State) : State → Prop
  | ignored : HostWrote s s
  | reset : HostWrote s (resetBlock s)
  | rejected : HostWrote s (rejectWrite s)
  | cleared (w : DWord) : HostWrote s (clearStatus s w)
  | control (w : DWord) (idle : busy s = false) : HostWrote s (setCtrl s w)
  | pointer (p : DWord) (idle : busy s = false) : HostWrote s { s with ptr := p }
  | length (n : DWord) (idle : busy s = false) : HostWrote s { s with len := n }
  | register (r : VReg) (x : Vec) (idle : busy s = false) : HostWrote s (writeReg s r x)
  | accepted (c : CmdWord) (idle : busy s = false) (noFault : s.fault = false) :
      HostWrote s (acceptCommand s c)

theorem hostWrite_wrote (s : State) (o width : Nat) (w : DWord) : HostWrote s (hostWrite s o width w) := by
  unfold hostWrite
  cases regAt (o - o % 8) with
  | ctrl =>
    dsimp only
    split_ifs with hr hb hl
    · exact .reset
    · exact .rejected
    · exact .control w (by simpa using hb)
    · exact .ignored
  | status =>
    dsimp only
    split_ifs
    · exact .cleared w
    · exact .ignored
  | ptr =>
    dsimp only
    split_ifs with hb
    · exact .rejected
    · exact .pointer _ (by simpa using hb)
  | len =>
    dsimp only
    split_ifs with hb
    · exact .rejected
    · exact .length _ (by simpa using hb)
  | cmd =>
    dsimp only
    split_ifs with hl hb
    · exact .rejected
    · rw [Bool.or_eq_true, not_or, Bool.not_eq_true, Bool.not_eq_true] at hb
      exact .accepted _ hb.1 hb.2
    · exact .ignored
  | vreg k h =>
    dsimp only
    split_ifs with hb
    · exact .rejected
    · unfold writeVreg
      split
      · exact .ignored
      · exact .register _ _ (by simpa using hb)
  | id => exact .ignored
  | cause => exact .ignored
  | faultAddr => exact .ignored
  | result => exact .ignored
  | lastCmd => exact .ignored
  | reserved => exact .ignored

/-! ### Commands other than HASH -/

/-- Everything a running command can end its step with: it completes, it faults having written nothing, or it waits
where it is for a read that is never answered (R310, R311, R367). -/
inductive CommandEnded (s : State) : State → Prop
  | completed {u : State} (wrote : u = withEffect s u) : CommandEnded s (complete u)
  | faulted (c : Cause) (a : DWord) (cause : c ≠ .none) : CommandEnded s (raiseFault s c a)
  | waiting : CommandEnded s s

theorem conclude_accessThen_ended {s u t : State} {a n : Nat} {fa : DWord} (hu : u = withEffect s u)
    (h : conclude (accessThen s a n fa u) = .next t) : CommandEnded s t := by
  rcases conclude_next h with ⟨v, hr, rfl⟩ | ⟨v, c, addr, hr, rfl⟩ | hr
  · obtain ⟨rfl, _⟩ := accessThen_done hr
    exact .completed hu
  · obtain ⟨rfl, ⟨rfl, _⟩ | ⟨rfl, _⟩⟩ := accessThen_fault hr
    · exact .faulted _ _ (by decide)
    · exact .faulted _ _ (by decide)
  · obtain ⟨rfl, _⟩ := accessThen_stuck hr
    exact .waiting

/-- Every command but HASH has a single step, so `exec` ends it or leaves it waiting (R35). -/
theorem exec_ended {i : Instr} {s t : State} (hi : i ≠ .hash) (h : exec i s = .next t) : CommandEnded s t := by
  cases i with
  | nop => cases h; exact .completed rfl
  | zero rd => cases h; exact .completed rfl
  | load rd => exact conclude_accessThen_ended rfl h
  | loadp rd n =>
    simp only [exec, execLoadp] at h
    split_ifs at h
    · cases h; exact .faulted _ _ (by decide)
    · exact conclude_accessThen_ended rfl h
  | comp rd a b => cases h; exact .completed rfl
  | aesr rd a b => cases h; exact .completed rfl
  | aesrl rd a b => cases h; exact .completed rfl
  | linit => exact conclude_accessThen_ended rfl h
  | lstep => exact conclude_accessThen_ended rfl h
  | lred rd => cases h; exact .completed rfl
  | fin a => cases h; exact .completed rfl
  | extr a => cases h; exact .completed rfl
  | hash => exact absurd rfl hi

/-- A command that ended is idle; one that waits has changed nothing. -/
theorem CommandEnded.idle_or_waiting {s t : State} (h : CommandEnded s t) :
    (t.seq = .idle ∧ (t.done = true ∨ t.fault = true)) ∨ t = s := by
  cases h with
  | completed => exact .inl ⟨rfl, .inl rfl⟩
  | faulted => exact .inl ⟨rfl, .inr rfl⟩
  | waiting => exact .inr rfl

/-- A command that is busy after its step waits where it was. -/
theorem CommandEnded.eq_of_busy {s t : State} (h : CommandEnded s t) (hb : Machine.busy t = true) : t = s := by
  rcases h.idle_or_waiting with ⟨hi, _⟩ | h
  · rw [(busy_eq_false_iff t).mpr hi] at hb
    cases hb
  · exact h

/-! ### The one word of HASH -/

theorem wordOf_fieldsOf (c : CmdWord) : wordOf (fieldsOf c) = c := by
  simp only [wordOf, fieldsOf]
  iterate 5 rw [BitVec.extractLsb'_append_extractLsb'_eq_extractLsb' (by rfl)]
  exact BitVec.extractLsb'_eq_self

theorem opcodeOf_hash : ∀ {op : BitVec 8}, opcodeOf op = some .hash → op = 0x10#8 := by decide

/-- The operands let through make a command of the opcode they were checked for. -/
theorem opcode_of_operandsOf {o : Opcode} {f : Fields} {i : Instr} (h : operandsOf o f = some i) :
    opcode i = o := by
  cases o <;> simp only [operandsOf, Option.map_eq_some_iff, Option.bind_eq_some_iff, Option.some.injEq] at h
  case nop | linit | lstep | hash => subst h; rfl
  case zero | load | loadp | lred | fin | extr => obtain ⟨_, _, rfl⟩ := h; rfl
  case comp | aesr | aesrl => obtain ⟨_, _, _, _, _, _, rfl⟩ := h; rfl

/-- Only one word spells HASH (R121, R124). -/
theorem eq_encode_of_decode_hash {c : CmdWord} (h : decode c = .ok .hash) : c = encode .hash := by
  unfold decode at h
  split at h
  · cases h
  · rename_i o ho
    split_ifs at h with hz
    split at h
    · cases h
    · rename_i i hi
      split_ifs at h
      cases h
      obtain rfl : Opcode.hash = o := opcode_of_operandsOf hi
      have hop := opcodeOf_hash ho
      simp only [unusedFieldsZero, usedFields, Bool.and_eq_true, beq_iff_eq, Bool.false_or] at hz
      obtain ⟨⟨⟨⟨hrsv, hrd⟩, hrs1⟩, hrs2⟩, hn⟩ := hz
      calc c = wordOf (fieldsOf c) := (wordOf_fieldsOf c).symm
        _ = wordOf ⟨(fieldsOf c).op, (fieldsOf c).rd, (fieldsOf c).rs1, (fieldsOf c).rs2, (fieldsOf c).n,
              (fieldsOf c).rsv⟩ := rfl
        _ = encode .hash := by rw [hop, hrd, hrs1, hrs2, hn, hrsv]; rfl

/-! ### Where the engine stands -/

/-- Everything the launch of HASH can do. -/
theorem hashLaunch_cases (s : State) :
    hashLaunch s = .fault s .addrWrap s.ptr ∨ hashLaunch s = .outside ∨
      hashLaunch s = .done { s with counters := some (hashCounters s.len.toNat) } := by
  unfold hashLaunch
  split_ifs <;> simp

theorem busy_of_seq {s : State} {c : CmdWord} {j : Nat} (h : s.seq = .exec c j) : busy s = true :=
  (busy_eq_true_iff s).mpr ⟨c, j, h⟩

theorem engineTick_idle {s : State} (h : s.seq = .idle) : engineTick s = .next s := by
  simp [engineTick, h]

/-- HASH runs with the counters `ct` and stands at line `j` of its microprogram. -/
def AtLine (s : State) (ct : HashCounters) (j : Nat) : Prop :=
  s.counters = some ct ∧ ∃ c, s.seq = .exec c j

theorem AtLine.busy {s : State} {ct : HashCounters} {j : Nat} (h : AtLine s ct j) : busy s = true := by
  obtain ⟨_, c, hs⟩ := h
  exact busy_of_seq hs

theorem AtLine.engineRun {s : State} {ct : HashCounters} {j : Nat} (h : AtLine s ct j) :
    engineRun s = conclude (runMicro ((hashProgram ct).drop j) s) := by
  obtain ⟨hct, c, hs⟩ := h
  simp [Machine.engineRun, hs, hct]

theorem AtLine.engineTick_end {s : State} {ct : HashCounters} {j : Nat} (h : AtLine s ct j)
    (hj : (hashProgram ct)[j]? = none) : engineTick s = .next (complete s) := by
  obtain ⟨hct, c, hs⟩ := h
  simp [engineTick, hs, hct, hj]

theorem AtLine.engineTick_line {s : State} {ct : HashCounters} {j : Nat} {op : MicroOp} (h : AtLine s ct j)
    (hj : (hashProgram ct)[j]? = some op) : engineTick s = proceed (microStep op s) := by
  obtain ⟨hct, c, hs⟩ := h
  simp [engineTick, hs, hct, hj]

/-- The engine holds the word `c` and HASH has not launched: every command before its step (R35). -/
def AtWord (s : State) (c : CmdWord) : Prop := s.counters = none ∧ ∃ j, s.seq = .exec c j

theorem engine_position (s : State) :
    s.seq = .idle ∨ (∃ ct j, AtLine s ct j) ∨ ∃ c, AtWord s c := by
  cases hseq : s.seq with
  | idle => exact .inl rfl
  | exec c j =>
    cases hct : s.counters with
    | some ct => exact .inr (.inl ⟨ct, j, hct, c, hseq⟩)
    | none => exact .inr (.inr ⟨c, hct, j, hseq⟩)

theorem AtWord.busy {s : State} {c : CmdWord} (h : AtWord s c) : busy s = true := by
  obtain ⟨_, j, hseq⟩ := h
  exact busy_of_seq hseq

section
variable {s : State} {c : CmdWord} (h : AtWord s c)
include h

theorem AtWord.engineTick_illegal {e : DecodeFault} (hd : decode c = .error e) :
    engineTick s = .next (raiseFault s (decodeCause e) 0) := by
  obtain ⟨hct, j, hseq⟩ := h
  simp [engineTick, hseq, hct, hd]

theorem AtWord.engineTick_hash (hd : decode c = .ok .hash) : engineTick s = proceed (hashLaunch s) := by
  obtain ⟨hct, j, hseq⟩ := h
  simp [engineTick, hseq, hct, hd]

theorem AtWord.engineTick_other {i : Instr} (hd : decode c = .ok i) (hi : i ≠ .hash) :
    engineTick s = exec i s := by
  obtain ⟨hct, j, hseq⟩ := h
  simp [engineTick, hseq, hct, hd, hi]

theorem AtWord.engineRun_illegal {e : DecodeFault} (hd : decode c = .error e) :
    engineRun s = .next (raiseFault s (decodeCause e) 0) := by
  obtain ⟨hct, j, hseq⟩ := h
  simp [engineRun, hseq, hct, hd]

theorem AtWord.engineRun_legal {i : Instr} (hd : decode c = .ok i) : engineRun s = exec i s := by
  obtain ⟨hct, j, hseq⟩ := h
  simp [engineRun, hseq, hct, hd]

theorem AtWord.engineAhead_illegal {e : DecodeFault} (hd : decode c = .error e) : engineAhead s = [] := by
  obtain ⟨hct, j, hseq⟩ := h
  simp [engineAhead, hseq, hct, hd]

/-- The instants ahead of a HASH that launches are those of its lines. -/
theorem AtWord.engineAhead_launched {t : State} (hd : decode c = .ok .hash) (hl : hashLaunch s = .done t) :
    engineAhead s = microAhead (hashProgram (hashCounters s.len.toNat)) t := by
  obtain ⟨hct, j, hseq⟩ := h
  simp [engineAhead, hseq, hct, hd, hl]

/-- A HASH that does not launch has no instant ahead. -/
theorem AtWord.engineAhead_not_launched (hd : decode c = .ok .hash) (hl : ∀ t, hashLaunch s ≠ .done t) :
    engineAhead s = [] := by
  obtain ⟨hct, j, hseq⟩ := h
  rcases hashLaunch_cases s with hl' | hl' | hl'
  · simp [engineAhead, hseq, hct, hd, hl']
  · simp [engineAhead, hseq, hct, hd, hl']
  · exact absurd hl' (hl _)

/-- The one instant ahead of any other command is its end. -/
theorem AtWord.engineAhead_other {i : Instr} {t : State} (hd : decode c = .ok i) (hi : i ≠ .hash)
    (he : exec i s = .next t) : engineAhead s = [snapshot t] := by
  obtain ⟨hct, j, hseq⟩ := h
  simp [engineAhead, hseq, hct, hd, hi, he]

/-- A command that is refused has no instant ahead. -/
theorem AtWord.engineAhead_refused {i : Instr} {r : Refusal} (hd : decode c = .ok i) (hi : i ≠ .hash)
    (he : exec i s = .refused r) : engineAhead s = [] := by
  obtain ⟨hct, j, hseq⟩ := h
  simp [engineAhead, hseq, hct, hd, hi, he]

end

theorem engineRun_idle {s : State} (h : s.seq = .idle) : engineRun s = .next s := by
  simp [engineRun, h]

theorem engineAhead_idle {s : State} (h : s.seq = .idle) : engineAhead s = [] := by
  simp [engineAhead, h]

theorem AtLine.engineAhead {s : State} {ct : HashCounters} {j : Nat} (h : AtLine s ct j) :
    engineAhead s = microAhead ((hashProgram ct).drop j) s := by
  obtain ⟨hct, c, hseq⟩ := h
  simp [Machine.engineAhead, hseq, hct]

theorem microAhead_done {op : MicroOp} {p : List MicroOp} {s t : State} (h : microStep op s = .done t) :
    microAhead (op :: p) s = snapshot t :: microAhead p t := by
  rw [microAhead, h]

/-- A launched HASH stands at line 0. -/
theorem atLine_launched {s : State} {c : CmdWord} (hs : s.seq = .exec c 0) :
    AtLine { s with counters := some (hashCounters s.len.toNat) } (hashCounters s.len.toNat) 0 :=
  ⟨rfl, c, hs⟩

/-- A line that finishes leaves HASH at the next line. -/
theorem AtLine.next {s t : State} {ct : HashCounters} {j : Nat} {op : MicroOp} (h : AtLine s ct j)
    (hm : microStep op s = .done t) : AtLine t ct (j + 1) := by
  obtain ⟨hct, c, hs⟩ := h
  rcases microStep_cases op s with ⟨u, hu, hd⟩ | ⟨_, _, _, hd⟩ | ⟨_, hd⟩ | ⟨_, hd⟩ <;> rw [hd] at hm <;> cases hm
  rw [microEffect_done hu]
  exact ⟨hct, c, by simp [withEffect, hs]⟩

/-! ### An internal step -/

/-- Everything an internal step of the engine can do (R35): nothing while idle; the end of the command, or a wait; the
launch of HASH; a line of HASH. -/
inductive EngineTicked (s : State) : State → Prop
  | idle (seq : s.seq = .idle) : EngineTicked s s
  | ended {t : State} (running : busy s = true) (ended : CommandEnded s t) : EngineTicked s t
  | launched {c : CmdWord} (word : AtWord s c) (hash : decode c = .ok .hash) :
      EngineTicked s { s with counters := some (hashCounters s.len.toNat) }
  | line {ct : HashCounters} {j : Nat} {u : State} (line : AtLine s ct j)
      (inside : j < (hashProgram ct).length) (wrote : u = withEffect s u) :
      EngineTicked s (advance (snapshot s) u)

theorem engineTick_ticked {s t : State} (h : engineTick s = .next t) : EngineTicked s t := by
  rcases engine_position s with hidle | ⟨ct, j, hline⟩ | ⟨c, hword⟩
  · rw [engineTick_idle hidle] at h
    cases h
    exact .idle hidle
  · cases hj : (hashProgram ct)[j]? with
    | none =>
      rw [hline.engineTick_end hj] at h
      cases h
      exact .ended hline.busy (.completed rfl)
    | some op =>
      rw [hline.engineTick_line hj] at h
      obtain ⟨hlt, _⟩ := List.getElem?_eq_some_iff.mp hj
      rcases microStep_cases op s with ⟨u, hu, hm⟩ | ⟨c', a, hf, hm⟩ | ⟨_, hm⟩ | ⟨_, hm⟩ <;>
        rw [hm] at h <;> cases h
      · exact .line hline hlt (microEffect_done hu)
      · obtain ⟨_, rfl | rfl⟩ := microEffect_fault hf
        · exact .ended hline.busy (.faulted _ _ (by decide))
        · exact .ended hline.busy (.faulted _ _ (by decide))
      · exact .ended hline.busy .waiting
  · cases hd : decode c with
    | error e =>
      rw [hword.engineTick_illegal hd] at h
      cases h
      exact .ended hword.busy (.faulted _ _ (by cases e <;> decide))
    | ok i =>
      by_cases hi : i = .hash
      · subst hi
        rw [hword.engineTick_hash hd] at h
        rcases hashLaunch_cases s with hl | hl | hl <;> rw [hl] at h <;> cases h
        · exact .ended hword.busy (.faulted _ _ (by decide))
        · exact .launched hword hd
      · rw [hword.engineTick_other hd hi] at h
        exact .ended hword.busy (exec_ended hi h)

/-! ### Every step -/

/-- A property is kept by each thing a step is made of. -/
structure KeptByParts (P : State → Prop) : Prop where
  agenda : ∀ s es, P s → P { s with agenda := es }
  read : ∀ s o width, P s → P (hostRead s o width)
  write : ∀ s t, HostWrote s t → P s → P t
  memory : ∀ s (a : DWord) x, P s → P (writeMemory s a.toNat x)
  tick : ∀ s t, engineTick s = .next t → P s → P t
  run : ∀ s t, engineRun s = .next t → P s → P t

theorem KeptByParts.access {P : State → Prop} (k : KeptByParts P) {s t : State} {a : HostAccess}
    (h : accessWith hostRead s a = .next t) (hs : P s) : P t := by
  rcases accessWith_next h with ⟨_, _, _, _, rfl⟩ | ⟨_, _, _, _, _, rfl⟩
  · exact k.read _ _ _ hs
  · exact k.write _ _ (hostWrite_wrote ..) hs

theorem KeptByParts.event {P : State → Prop} (k : KeptByParts P) {s t : State} {e : Event}
    (h : runEvent e s = .next t) (hs : P s) : P t := by
  cases e with
  | host a => exact k.access h hs
  | tick => exact k.tick _ _ h hs
  | sameCycle a =>
    simp only [runEvent, eventWith] at h
    split at h
    · rename_i u hu
      exact k.tick _ _ h (k.agenda _ _ (k.access hu (k.agenda _ _ hs)))
    · cases h
    · cases h
  | hardReset => cases h; exact k.write _ _ .reset hs
  | memWrite a x => cases h; exact k.memory _ _ _ hs

/-- What every part of a step keeps, the step keeps. -/
theorem KeptByParts.step {P : State → Prop} (k : KeptByParts P) {s t : State} (h : step s = .next t)
    (hs : P s) : P t := by
  unfold Sys2Proof.Machine.step at h
  split at h
  · exact k.run _ _ h hs
  · exact k.event h (k.agenda _ _ hs)

end Sys2Proof.Proofs
end

section
/-! SUPPORT. The engine taken step by step and at once: running a command to its end is running internal steps until
nothing moves (R35, R272, R283, R311). -/

namespace Sys2Proof.Proofs

open Sys2Proof.Machine Sys2Proof.Safety

/-- `n` internal steps of the engine, stopping at a refusal. -/
def ticks : Nat → State → Host.Outcome State Fault Refusal
  | 0, s => .next s
  | n + 1, s =>
    match engineTick s with
    | .next t => ticks n t
    | .fault r => .fault r
    | .refused r => .refused r

theorem ticks_succ_next {s t : State} (h : engineTick s = .next t) (n : Nat) : ticks (n + 1) s = ticks n t := by
  rw [ticks, h]

theorem ticks_succ_refused {s : State} {r : Refusal} (h : engineTick s = .refused r) (n : Nat) :
    ticks (n + 1) s = .refused r := by
  rw [ticks, h]

theorem ticks_one (s : State) : ticks 1 s = engineTick s := by
  rw [ticks]
  cases engineTick s <;> rfl

/-- Where an internal step changes nothing, no number of them does. -/
theorem ticks_fixed {s : State} (h : engineTick s = .next s) (n : Nat) : ticks n s = .next s := by
  induction n with
  | zero => rfl
  | succ n ih => rw [ticks_succ_next h, ih]

/-- The head of what is left of a list is the element the index stands at. -/
theorem getElem?_of_drop_eq_cons {α : Type} {l p : List α} {a : α} {j : Nat} (h : l.drop j = a :: p) :
    l[j]? = some a ∧ l.drop (j + 1) = p := by
  constructor
  · rw [← Nat.add_zero j, ← List.getElem?_drop, h]
    rfl
  · simpa [Nat.add_comm] using congrArg (List.drop 1) h

/-- From line `j` on, one internal step for each line left and one for the completion end where running the lines at
once ends; further internal steps change nothing. -/
theorem ticks_lines {p : List MicroOp} {s : State} {ct : HashCounters} {j : Nat} (h : AtLine s ct j)
    (hp : (hashProgram ct).drop j = p) (extra : Nat) :
    ticks (p.length + 1 + extra) s = conclude (runMicro p s) := by
  induction p generalizing s j with
  | nil =>
    have hj : (hashProgram ct)[j]? = none := by simpa using hp
    rw [List.length_nil, Nat.zero_add, Nat.add_comm, ticks_succ_next (h.engineTick_end hj)]
    exact ticks_fixed (engineTick_idle rfl) extra
  | cons op p ih =>
    obtain ⟨hj, hp'⟩ := getElem?_of_drop_eq_cons hp
    have htick := h.engineTick_line hj
    rw [List.length_cons, show p.length + 1 + 1 + extra = p.length + 1 + extra + 1 by omega]
    rcases microStep_cases op s with ⟨u, _, hm⟩ | ⟨c, a, _, hm⟩ | ⟨_, hm⟩ | ⟨_, hm⟩ <;>
      simp only [runMicro, hm] <;> rw [hm] at htick
    · rw [ticks_succ_next htick, ih (h.next hm) hp']
    · rw [ticks_succ_next htick]
      exact ticks_fixed (engineTick_idle rfl) _
    · exact ticks_fixed htick _
    · exact ticks_succ_refused htick _

/-- A HASH that is about to launch: one internal step for its range check, then its lines. -/
theorem ticks_hash {s : State} (hseq : s.seq = .exec (encode .hash) 0) (hct : s.counters = none) :
    ticks ((hashProgram (hashCounters s.len.toNat)).length + 2) s = exec .hash s := by
  have hword : AtWord s (encode .hash) := ⟨hct, 0, hseq⟩
  have htick := hword.engineTick_hash (by decide)
  change _ = conclude (hashEffect s)
  unfold hashEffect
  rcases hashLaunch_cases s with hl | hl | hl <;> rw [hl] at htick ⊢
  · rw [ticks_succ_next htick]
    exact ticks_fixed (engineTick_idle rfl) _
  · exact ticks_succ_refused htick _
  · rw [ticks_succ_next htick]
    exact ticks_lines (atLine_launched hseq) rfl 0

/-- Only HASH is past step 0 (R35). -/
def StartsAtZero (s : State) : Prop := ∀ c j, s.seq = .exec c j → s.counters = none → j = 0

/-- Running the command to its end is a number of internal steps. -/
theorem engineRun_eq_ticks {s : State} (h : StartsAtZero s) : ∃ n, engineRun s = ticks n s := by
  rcases engine_position s with hidle | ⟨ct, j, hline⟩ | ⟨c, hword⟩
  · exact ⟨0, engineRun_idle hidle⟩
  · exact ⟨_, hline.engineRun.trans (ticks_lines hline rfl 0).symm⟩
  · cases hd : decode c with
    | error e => exact ⟨1, by rw [ticks_one, hword.engineRun_illegal hd, hword.engineTick_illegal hd]⟩
    | ok i =>
      by_cases hi : i = .hash
      · subst hi
        obtain rfl := eq_encode_of_decode_hash hd
        obtain ⟨hct, j, hseq⟩ := id hword
        obtain rfl := h _ j hseq hct
        exact ⟨_, (hword.engineRun_legal hd).trans (ticks_hash hseq hct).symm⟩
      · exact ⟨1, by rw [ticks_one, hword.engineRun_legal hd, hword.engineTick_other hd hi]⟩

/-- What every internal step keeps, any number of them keeps. -/
theorem ticks_keeps {P : State → Prop} (hP : ∀ s t, engineTick s = .next t → P s → P t) {n : Nat} {s t : State}
    (h : ticks n s = .next t) (hs : P s) : P t := by
  induction n generalizing s with
  | zero => cases h; exact hs
  | succ n ih =>
    rw [ticks] at h
    split at h
    · exact ih h (hP _ _ ‹_› hs)
    · cases h
    · cases h

end Sys2Proof.Proofs
end

section
/-! SUPPORT. The invariant, kept by each thing a step is made of. -/

namespace Sys2Proof.Proofs

open Sys2Proof.Machine Sys2Proof.Safety

theorem inv_startsAtZero {s : State} (h : Inv s) : StartsAtZero s :=
  fun c j hseq hct => (h.running c j hseq).2.2 hct

/-- An idle state without hidden state has the invariant when its memory and its recorded fault have theirs. -/
theorem inv_of_idle {s : State} (hm : MemoryCanonical s) (hseq : s.seq = .idle)
    (hclean : s.counters = none ∧ s.finH = none ∧ s.raced = [] ∧ s.history = []) (hf : FaultHasCause s) :
    Inv s where
  memory := hm
  idle := fun _ => hclean
  counters := fun ct h => by rw [hclean.1] at h; cases h
  running := fun c j h => by rw [hseq] at h; cases h
  faultCause := hf

theorem inv_complete {s : State} (h : Inv s) : Inv (complete s) :=
  inv_of_idle h.memory rfl ⟨rfl, rfl, rfl, rfl⟩ h.faultCause

theorem inv_raiseFault {s : State} {c : Cause} {a : DWord} (hc : c ≠ .none) (h : Inv s) :
    Inv (raiseFault s c a) :=
  inv_of_idle h.memory rfl ⟨rfl, rfl, rfl, rfl⟩ fun _ => hc

theorem inv_resetBlock {s : State} (h : Inv s) : Inv (resetBlock s) :=
  inv_of_idle h.memory rfl ⟨rfl, rfl, rfl, rfl⟩ fun hf => nomatch hf

/-- The effect of a running command touches nothing the invariant speaks of. -/
theorem inv_withEffect {s u : State} (hb : busy s = true) (h : Inv s) : Inv (withEffect s u) where
  memory := h.memory
  idle := fun hi => by
    rw [(busy_eq_false_iff s).mpr hi] at hb
    cases hb
  counters := h.counters
  running := h.running
  faultCause := h.faultCause

theorem inv_commandEnded {s t : State} (he : CommandEnded s t) (hb : busy s = true) (h : Inv s) : Inv t := by
  cases he with
  | completed wrote => rw [wrote]; exact inv_complete (inv_withEffect hb h)
  | faulted c a cause => exact inv_raiseFault cause h
  | waiting => exact h

/-- The launch of HASH gives the counters the values of LEN, at line 0 (R271, R272). -/
theorem inv_launched {s : State} {c : CmdWord} (hword : AtWord s c) (hd : decode c = .ok .hash) (h : Inv s) :
    Inv { s with counters := some (hashCounters s.len.toNat) } where
  memory := h.memory
  idle := fun hi => by
    obtain ⟨_, _, hseq⟩ := hword
    cases hseq.symm.trans hi
  counters := fun ct hc => by
    cases hc
    obtain ⟨hct, j, hseq⟩ := hword
    obtain rfl := inv_startsAtZero h c j hseq hct
    obtain rfl := eq_encode_of_decode_hash hd
    exact ⟨rfl, 0, hseq, Nat.zero_le _⟩
  running := fun c' j' hs' => by
    obtain ⟨hlast, hfault, _⟩ := h.running c' j' hs'
    exact ⟨hlast, hfault, fun hn => nomatch hn⟩
  faultCause := h.faultCause

/-- A line that finishes moves the sequencer by one, to a line or just past the last. -/
theorem inv_advance {s : State} {sn : Snapshot} {j : Nat} {ct : HashCounters} (hline : AtLine s ct j)
    (hj : j < (hashProgram ct).length) (h : Inv s) : Inv (advance sn s) where
  memory := h.memory
  idle := fun hi => by
    obtain ⟨_, c, hseq⟩ := hline
    simp [hseq] at hi
  counters := fun ct' hc => by
    obtain ⟨hct, c, hseq⟩ := hline
    obtain ⟨hlen, i, hi, _⟩ := h.counters ct' hc
    obtain rfl : ct = ct' := Option.some.inj (hct.symm.trans hc)
    obtain ⟨rfl, rfl⟩ : c = encode .hash ∧ j = i := by simpa [hseq] using hi
    exact ⟨hlen, j + 1, by simp [hseq], hj⟩
  running := fun c' j' hs' => by
    obtain ⟨hct, c, hseq⟩ := hline
    obtain ⟨rfl, _⟩ : c = c' ∧ j + 1 = j' := by simpa [hseq] using hs'
    obtain ⟨hlast, hfault, _⟩ := h.running c j hseq
    exact ⟨hlast, hfault, fun hn => nomatch hct.symm.trans hn⟩
  faultCause := h.faultCause

theorem inv_engineTick {s t : State} (ht : engineTick s = .next t) (h : Inv s) : Inv t := by
  cases engineTick_ticked ht with
  | idle => exact h
  | ended hb he => exact inv_commandEnded he hb h
  | launched hword hd => exact inv_launched hword hd h
  | line hline hj wrote =>
    rw [wrote]
    exact inv_advance hline hj (inv_withEffect hline.busy h)

theorem inv_engineRun {s t : State} (ht : engineRun s = .next t) (h : Inv s) : Inv t := by
  obtain ⟨n, hn⟩ := engineRun_eq_ticks (inv_startsAtZero h)
  exact ticks_keeps (fun _ _ => inv_engineTick) (hn.symm.trans ht) h

theorem inv_hostWrote {s t : State} (hw : HostWrote s t) (h : Inv s) : Inv t := by
  cases hw with
  | ignored => exact h
  | reset => exact inv_resetBlock h
  | rejected | control | pointer | register =>
    exact ⟨h.memory, h.idle, h.counters, h.running, h.faultCause⟩
  | cleared w =>
    refine ⟨h.memory, h.idle, h.counters, fun c j hs => ?_, fun hf => ?_⟩
    · obtain ⟨hlast, hfault, hz⟩ := h.running c j hs
      exact ⟨hlast, by simp [hfault], hz⟩
    · rw [clearStatus_fault, Bool.and_eq_true] at hf
      exact h.faultCause hf.1
  | length n idle =>
    have hseq := (busy_eq_false_iff s).mp idle
    exact inv_of_idle h.memory hseq (h.idle hseq) h.faultCause
  | accepted c idle noFault =>
    exact {
      memory := h.memory
      idle := fun hi => nomatch hi
      counters := fun _ hc => nomatch hc
      running := fun _ _ hs => by cases hs; exact ⟨rfl, noFault, fun _ => rfl⟩
      faultCause := h.faultCause }

theorem inv_writeMemory {s : State} (a : DWord) (x : Byte) (h : Inv s) : Inv (writeMemory s a.toNat x) where
  memory := Memory.write_wf h.memory a.isLt
  idle := fun hi => by
    have hb : busy s = false := (busy_eq_false_iff s).mpr hi
    simpa [hb] using h.idle hi
  counters := h.counters
  running := h.running
  faultCause := h.faultCause

theorem inv_keptByParts : KeptByParts Inv where
  agenda := fun _ _ h => ⟨h.memory, h.idle, h.counters, h.running, h.faultCause⟩
  read := fun _ _ _ h => ⟨h.memory, h.idle, h.counters, h.running, h.faultCause⟩
  write := fun _ _ => inv_hostWrote
  memory := fun _ => inv_writeMemory
  tick := fun _ _ => inv_engineTick
  run := fun _ _ => inv_engineRun

/-- Settles O59: each part of a step keeps the invariant. -/
theorem stepKeepsTheInvariant : Obligations.StepKeepsTheInvariant :=
  fun _ _ h hstep => inv_keptByParts.step hstep h

end Sys2Proof.Proofs
end

section
/-! SUPPORT. What the engine never writes, and what no step changes. -/

namespace Sys2Proof.Proofs

open Sys2Proof.Machine Sys2Proof.Safety

/-! ### The engine's frame -/

/-- The state with all that the engine writes erased: two states have the same `engineFrame` when they agree on memory,
LEN, CTRL, LASTCMD, CMDERR, the salts, the platform and the world around the block (R34). -/
def engineFrame (s : State) : State :=
  { s with
    v := VRegs.zero, ptr := 0, result := 0, done := false, fault := false, cause := .none, faultAddr := 0
    seq := .idle, counters := none, finH := none, raced := [], history := [] }

@[simp] theorem engineFrame_complete (s : State) : engineFrame (complete s) = engineFrame s := rfl

@[simp] theorem engineFrame_raiseFault (s : State) (c : Cause) (a : DWord) :
    engineFrame (raiseFault s c a) = engineFrame s := rfl

@[simp] theorem engineFrame_withEffect (s u : State) : engineFrame (withEffect s u) = engineFrame s := rfl

@[simp] theorem engineFrame_advance (sn : Snapshot) (s : State) :
    engineFrame (advance sn s) = engineFrame s := rfl

theorem engineFrame_commandEnded {s t : State} (h : CommandEnded s t) : engineFrame t = engineFrame s := by
  cases h with
  | completed wrote => rw [wrote, engineFrame_complete, engineFrame_withEffect]
  | faulted c a cause => exact engineFrame_raiseFault s c a
  | waiting => rfl

theorem engineFrame_runMicro {p : List MicroOp} {s t : State} (h : conclude (runMicro p s) = .next t) :
    engineFrame t = engineFrame s := by
  induction p generalizing s with
  | nil => cases h; rfl
  | cons op p ih =>
    rcases microStep_cases op s with ⟨u, hu, hm⟩ | ⟨c, a, _, hm⟩ | ⟨_, hm⟩ | ⟨_, hm⟩ <;>
      simp only [runMicro, hm] at h
    · rw [ih h, microEffect_done hu, engineFrame_advance, engineFrame_withEffect]
    · cases h; rfl
    · cases h; rfl
    · cases h

theorem engineFrame_exec {i : Instr} {s t : State} (h : exec i s = .next t) : engineFrame t = engineFrame s := by
  by_cases hi : i = .hash
  · subst hi
    simp only [exec, execHash, hashEffect] at h
    rcases hashLaunch_cases s with hl | hl | hl <;> rw [hl] at h
    · cases h; rfl
    · cases h
    · exact (engineFrame_runMicro h).trans rfl
  · exact engineFrame_commandEnded (exec_ended hi h)

theorem engineFrame_engineTick {s t : State} (h : engineTick s = .next t) : engineFrame t = engineFrame s := by
  cases engineTick_ticked h with
  | idle => rfl
  | ended _ he => exact engineFrame_commandEnded he
  | launched => rfl
  | line _ _ wrote => rw [wrote, engineFrame_advance, engineFrame_withEffect]

theorem engineFrame_engineRun {s t : State} (h : engineRun s = .next t) : engineFrame t = engineFrame s := by
  unfold engineRun at h
  split at h
  · cases h; rfl
  · split at h
    · exact engineFrame_runMicro h
    · split at h
      · cases h; rfl
      · exact engineFrame_exec h

/-! ### What no step changes -/

/-- The salts, where the block sits, and the regions of platform memory. -/
def platform (s : State) : (Vec × Vec × Vec) × DWord × List Region :=
  ((s.salt1, s.salt2, s.salt3), s.gxhBase, s.regions)

theorem platform_of_engineFrame {s t : State} (h : engineFrame t = engineFrame s) : platform t = platform s := by
  change platform (engineFrame t) = platform (engineFrame s)
  rw [h]

theorem platform_hostWrote {s t : State} (h : HostWrote s t) : platform t = platform s := by
  cases h <;> rfl

theorem platform_keptByParts (p) : KeptByParts fun s => platform s = p where
  agenda := fun _ _ h => h
  read := fun _ _ _ h => h
  write := fun _ _ hw h => (platform_hostWrote hw).trans h
  memory := fun _ _ _ h => h
  tick := fun _ _ ht h => (platform_of_engineFrame (engineFrame_engineTick ht)).trans h
  run := fun _ _ ht h => (platform_of_engineFrame (engineFrame_engineRun ht)).trans h

/-- Settles O43: resets take the salts over, and nothing else writes them or the platform. -/
theorem saltsAreConstant : Obligations.SaltsAreConstant := by
  intro s t hstep
  have h : platform t = platform s := (platform_keptByParts (platform s)).step hstep rfl
  simpa [platform, and_assoc] using h

end Sys2Proof.Proofs
end

section
/-! SUPPORT. The engine does not look at the agenda or at the value the last host read returned, so it commutes with
a change of the two. -/

namespace Sys2Proof.Proofs

open Sys2Proof.Machine Sys2Proof.Safety

/-- The state with another agenda and another last read value. -/
def outside (es : List Event) (r : DWord) (s : State) : State := { s with agenda := es, readData := r }

/-- The result of an effect, with `f` applied to its state. -/
def mapResult (f : State → State) : OpResult → OpResult
  | .done s => .done (f s)
  | .fault s c a => .fault (f s) c a
  | .stuck s => .stuck (f s)
  | .outside => .outside

/-- The outcome of a step, with `f` applied to its state. -/
def mapNext (f : State → State) : Host.Outcome State Fault Refusal → Host.Outcome State Fault Refusal
  | .next s => .next (f s)
  | .fault r => .fault r
  | .refused r => .refused r

section
variable (es : List Event) (r : DWord)

@[simp] theorem outside_seq (s : State) : (outside es r s).seq = s.seq := rfl
@[simp] theorem outside_counters (s : State) : (outside es r s).counters = s.counters := rfl
@[simp] theorem snapshot_outside (s : State) : snapshot (outside es r s) = snapshot s := rfl
@[simp] theorem busy_outside (s : State) : busy (outside es r s) = busy s := rfl

theorem accessThen_outside {s t t' : State} (ht : t' = outside es r t) (a n : Nat) (fa : DWord) :
    accessThen (outside es r s) a n fa t' = mapResult (outside es r) (accessThen s a n fa t) := by
  subst ht
  rcases accessThen_cases s a n fa t with ⟨hl, he⟩ | ⟨hl, ⟨hp, he⟩ | ⟨hp, he⟩ | ⟨hp, he⟩ | ⟨hp, he⟩⟩ <;>
    rw [he] <;> unfold accessThen
  · rw [if_pos hl]; rfl
  all_goals
    rw [if_neg (not_lt.mpr hl), show portAnswer (outside es r s) a n = portAnswer s a n from rfl, hp]
    rfl

theorem loadEffect_outside (rd : VReg) (s : State) :
    loadEffect rd (outside es r s) = mapResult (outside es r) (loadEffect rd s) :=
  accessThen_outside es r (by rfl) ..

theorem loadpEffect_outside (rd : VReg) (n : Nat) (s : State) :
    loadpEffect rd n (outside es r s) = mapResult (outside es r) (loadpEffect rd n s) :=
  accessThen_outside es r (by rfl) ..

theorem linitEffect_outside (s : State) :
    linitEffect (outside es r s) = mapResult (outside es r) (linitEffect s) :=
  accessThen_outside es r (by rfl) ..

theorem lstepEffect_outside (s : State) :
    lstepEffect (outside es r s) = mapResult (outside es r) (lstepEffect s) :=
  accessThen_outside es r (by rfl) ..

theorem microEffect_outside (op : MicroOp) (s : State) :
    microEffect op (outside es r s) = mapResult (outside es r) (microEffect op s) := by
  cases op with
  | linit => exact linitEffect_outside es r s
  | lstep => exact lstepEffect_outside es r s
  | loadTmp => exact loadEffect_outside es r .tmp s
  | loadpTmp n => exact loadpEffect_outside es r .tmp n s
  | lredAcc | zeroAcc | compAcc | finAcc => rfl

theorem microStep_outside (op : MicroOp) (s : State) :
    microStep op (outside es r s) = mapResult (outside es r) (microStep op s) := by
  unfold microStep
  rw [microEffect_outside]
  cases microEffect op s <;> rfl

theorem runMicro_outside (p : List MicroOp) (s : State) :
    runMicro p (outside es r s) = mapResult (outside es r) (runMicro p s) := by
  induction p generalizing s with
  | nil => rfl
  | cons op p ih =>
    simp only [runMicro, microStep_outside]
    cases microStep op s with
    | done t => exact ih t
    | fault | stuck | outside => rfl

theorem hashLaunch_outside (s : State) :
    hashLaunch (outside es r s) = mapResult (outside es r) (hashLaunch s) := by
  unfold hashLaunch
  rw [apply_ite (mapResult _), apply_ite (mapResult _)]
  rfl

theorem conclude_outside (x : OpResult) :
    conclude (mapResult (outside es r) x) = mapNext (outside es r) (conclude x) := by
  cases x <;> rfl

theorem proceed_outside (x : OpResult) :
    proceed (mapResult (outside es r) x) = mapNext (outside es r) (proceed x) := by
  cases x <;> rfl

theorem execHash_outside (s : State) :
    execHash (outside es r s) = mapNext (outside es r) (execHash s) := by
  unfold execHash hashEffect
  rw [hashLaunch_outside, ← conclude_outside]
  cases hashLaunch s with
  | done t => exact congrArg conclude (runMicro_outside es r _ t)
  | fault | stuck | outside => rfl

theorem exec_outside (i : Instr) (s : State) :
    exec i (outside es r s) = mapNext (outside es r) (exec i s) := by
  cases i with
  | nop | zero | comp | aesr | aesrl | lred | fin | extr => rfl
  | load rd => exact (congrArg conclude (loadEffect_outside es r rd s)).trans (conclude_outside ..)
  | linit => exact (congrArg conclude (linitEffect_outside es r s)).trans (conclude_outside ..)
  | lstep => exact (congrArg conclude (lstepEffect_outside es r s)).trans (conclude_outside ..)
  | loadp rd n =>
    simp only [exec, execLoadp]
    split_ifs
    · rfl
    · rw [loadpEffect_outside, conclude_outside]
  | hash => exact execHash_outside es r s

/-- An internal step sees nothing of the agenda (R35). -/
theorem engineTick_outside (s : State) :
    engineTick (outside es r s) = mapNext (outside es r) (engineTick s) := by
  simp only [engineTick, outside_seq, outside_counters]
  cases s.seq with
  | idle => rfl
  | exec c j =>
    cases s.counters with
    | some ct =>
      dsimp only
      cases (hashProgram ct)[j]? with
      | none => rfl
      | some op => exact (congrArg proceed (microStep_outside es r op s)).trans (proceed_outside ..)
    | none =>
      dsimp only
      cases decode c with
      | error e => rfl
      | ok i =>
        dsimp only
        split_ifs
        · rw [hashLaunch_outside, proceed_outside]
        · exact exec_outside es r i s

theorem ticks_outside (n : Nat) (s : State) :
    ticks n (outside es r s) = mapNext (outside es r) (ticks n s) := by
  induction n generalizing s with
  | zero => rfl
  | succ n ih =>
    simp only [ticks, engineTick_outside]
    cases engineTick s with
    | next t => exact ih t
    | fault | refused => rfl

end

/-! ### Steps over an agenda of ticks -/

theorem run_succ_next {s t : State} (h : step s = .next t) (n : Nat) : core.run (n + 1) s = core.run n t := by
  simp only [Host.Core.run, show core.step s = .next t from h]

theorem run_succ_refused {s : State} {e : Refusal} (h : step s = .refused e) (n : Nat) :
    core.run (n + 1) s = .refused e := by
  simp only [Host.Core.run, show core.step s = .refused e from h]

/-- With an internal step of the engine next on the agenda, that is what a step does. -/
theorem step_tick (es : List Event) (r : DWord) (s : State) :
    step (outside (.tick :: es) r s) = mapNext (outside es r) (engineTick s) :=
  engineTick_outside es r s

/-- `n` ticks on the agenda are `n` internal steps. -/
theorem run_replicate_tick (n : Nat) (es : List Event) (r : DWord) (s : State) :
    core.run n (outside (List.replicate n .tick ++ es) r s) = mapNext (outside es r) (ticks n s) := by
  induction n generalizing s with
  | zero => rfl
  | succ n ih =>
    have hstep := step_tick (List.replicate n .tick ++ es) r s
    rw [List.replicate_succ, List.cons_append, ticks]
    cases ht : engineTick s with
    | next t =>
      rw [ht] at hstep
      exact (run_succ_next hstep n).trans (ih t)
    | fault e => cases e
    | refused e =>
      rw [ht] at hstep
      exact run_succ_refused hstep n

/-- Settles O33: the ticks are internal steps of the engine, which end where the lines at once end. -/
theorem hashStepsMatchTheWholeRun : Obligations.HashStepsMatchTheWholeRun := by
  intro s hagenda hseq hct
  have hs : s = outside [] s.readData s := by rw [outside, ← hagenda]
  have hrun := run_replicate_tick ((hashProgram (hashCounters s.len.toNat)).length + 2) [] s.readData s
  rw [ticks_hash hseq hct, ← exec_outside, ← hs, List.append_nil] at hrun
  exact hrun

end Sys2Proof.Proofs
end

section
/-! SUPPORT. The register block: which accesses are let through, which register an offset names, what a write to each
register does, and the bytes an access reaches (R40, R41). -/

namespace Sys2Proof.Proofs

open Sys2Proof.Machine Sys2Proof.Safety

/-! ### Accesses let through -/

theorem blockOffset_base (s : State) {o : Nat} (h : o < 2 ^ 64) :
    blockOffset s (s.gxhBase + BitVec.ofNat 64 o) = o := by
  rw [blockOffset, add_sub_cancel_left, BitVec.toNat_ofNat, Nat.mod_eq_of_lt h]

/-- An access of a supported form: 4 or 8 bytes, naturally aligned, inside the block (R41). -/
structure Supported (o width : Nat) : Prop where
  size : width = 4 ∨ width = 8
  aligned : o % width = 0
  inside : o + width ≤ 0x200

theorem Supported.of_slot {b d width : Nat} (hw : width = 4 ∨ width = 8) (hb : b % 8 = 0) (hin : b < 0x200)
    (hd : d % width = 0) (hdw : d + width ≤ 8) : Supported (b + d) width := by
  refine ⟨hw, ?_, by omega⟩
  rcases hw with rfl | rfl <;> omega

/-- Below the end of the block natural alignment is enough. -/
theorem Supported.of_lt {o width : Nat} (hw : width = 4 ∨ width = 8) (ho : o % width = 0) (hlt : o < 0x200) :
    Supported o width := by
  refine ⟨hw, ho, ?_⟩
  rcases hw with rfl | rfl <;> omega

theorem Supported.offset {o width : Nat} (h : Supported o width) (s : State) :
    blockOffset s (s.gxhBase + BitVec.ofNat 64 o) = o :=
  blockOffset_base s (by have := h.inside; omega)

theorem Supported.accessRefusal {o width : Nat} (h : Supported o width) : accessRefusal o width = none := by
  obtain ⟨hw, ha, hi⟩ := h
  rw [Machine.accessRefusal, Config.registerBlockSize, if_neg (by omega), if_neg (by omega), if_neg (by omega)]

theorem accessRefusal_unsupported {o width : Nat}
    (h : (width ≠ 4 ∧ width ≠ 8) ∨ o % width ≠ 0 ∨ 0x200 < o + width) :
    ∃ r, accessRefusal o width = some r ∧ r ≠ .readSideEffect := by
  unfold accessRefusal Config.registerBlockSize
  split_ifs
  · exact ⟨_, rfl, by decide⟩
  · exact ⟨_, rfl, by decide⟩
  · exact ⟨_, rfl, by decide⟩
  · omega

theorem hostWriteStep_access (s : State) (o width : Nat) (w : DWord) :
    hostWriteStep s o width w =
      accessWith hostRead { s with agenda := [] } (.write (s.gxhBase + BitVec.ofNat 64 o) width w) := rfl

theorem hostReadThen_access (s : State) (o width : Nat) (rest : List Event) :
    hostReadThen s o width rest =
      accessWith hostRead { s with agenda := rest } (.read (s.gxhBase + BitVec.ofNat 64 o) width) := rfl

theorem hostWriteStep_eq {s : State} {o width : Nat} (h : Supported o width) (w : DWord) :
    hostWriteStep s o width w = .next (hostWrite { s with agenda := [] } o width w) := by
  have hoff : blockOffset { s with agenda := [] } (s.gxhBase + BitVec.ofNat 64 o) = o := h.offset s
  rw [hostWriteStep_access, accessWith, hoff, h.accessRefusal]

theorem hostReadThen_eq {s : State} {o width : Nat} (h : Supported o width) (rest : List Event) :
    hostReadThen s o width rest = .next (hostRead { s with agenda := rest } o width) := by
  have hoff : blockOffset { s with agenda := rest } (s.gxhBase + BitVec.ofNat 64 o) = o := h.offset s
  rw [hostReadThen_access, accessWith, hoff, h.accessRefusal]

theorem hostReadStep_eq {s : State} {o width : Nat} (h : Supported o width) :
    hostReadStep s o width = .next (hostRead { s with agenda := [] } o width) :=
  hostReadThen_eq h []

/-- Settles O56: such an access is refused before it reaches a register. -/
theorem unsupportedAccessesAreRefused : Obligations.UnsupportedAccessesAreRefused := by
  intro s o width w ho hun
  obtain ⟨r, hr, hne⟩ := accessRefusal_unsupported hun
  have hoff : blockOffset { s with agenda := [] } (s.gxhBase + BitVec.ofNat 64 o) = o := blockOffset_base s ho
  refine ⟨⟨r, ?_, hne⟩, r, ?_, hne⟩
  · rw [hostWriteStep_access, accessWith, hoff, hr]
  · change hostReadThen s o width [] = _
    rw [hostReadThen_access, accessWith, hoff, hr]

/-! ### The register an offset names -/

theorem slot_start {b d : Nat} (hb : b % 8 = 0) (hd : d < 8) : b + d - (b + d) % 8 = b := by omega

theorem slot_byte {b d : Nat} (hb : b % 8 = 0) (hd : d < 8) : (b + d) % 8 = d := by omega

theorem regAt_vreg {o : Nat} (h : 0x100 ≤ o) (hlt : o < 0x200) :
    regAt o = .vreg ((o - 0x100) / 16) (o / 8 % 2) := by
  unfold regAt
  split
  case h_11 => exact if_pos ⟨h, hlt⟩
  all_goals omega

theorem regAt_vreg_slot {k h : Nat} (hk : k < 16) (hh : h < 2) : regAt (0x100 + 16 * k + 8 * h) = .vreg k h := by
  rw [regAt_vreg (by omega) (by omega)]
  congr 1 <;> omega

theorem regAt_reserved {o : Nat} (h : 0x50 ≤ o) (hlt : o < 0x100) : regAt o = .reserved := by
  unfold regAt
  split
  case h_11 => exact if_neg (by omega)
  all_goals omega

/-! ### What a write to each register does -/

section
variable {s : State} {o width : Nat} {w : DWord}

theorem hostWrite_ctrl (h : regAt (o - o % 8) = .ctrl) :
    hostWrite s o width w =
      if reachesLow o width && w.getLsbD 3 then resetBlock s
      else if busy s then rejectWrite s
      else if reachesLow o width then setCtrl s w
      else s := by
  rw [hostWrite, h]

theorem hostWrite_status (h : regAt (o - o % 8) = .status) :
    hostWrite s o width w = if reachesLow o width then clearStatus s w else s := by
  rw [hostWrite, h]

theorem hostWrite_ptr (h : regAt (o - o % 8) = .ptr) :
    hostWrite s o width w =
      if busy s then rejectWrite s else { s with ptr := mergeWrite s.ptr w o width } := by
  rw [hostWrite, h]

theorem hostWrite_len (h : regAt (o - o % 8) = .len) :
    hostWrite s o width w =
      if busy s then rejectWrite s else { s with len := mergeWrite s.len w o width } := by
  rw [hostWrite, h]

theorem hostWrite_cmd (h : regAt (o - o % 8) = .cmd) :
    hostWrite s o width w =
      if reachesLow o width then
        if busy s || s.fault then rejectWrite s else acceptCommand s (w.extractLsb' 0 32)
      else s := by
  rw [hostWrite, h]

theorem hostWrite_vreg {k i : Nat} (h : regAt (o - o % 8) = .vreg k i) :
    hostWrite s o width w = if busy s then rejectWrite s else writeVreg s k i w o width := by
  rw [hostWrite, h]

/-- The read-only registers and the reserved offsets ignore their writes (R40, R41). -/
theorem hostWrite_readOnly
    (h : regAt (o - o % 8) ∈ [RegName.id, .cause, .faultAddr, .result, .lastCmd, .reserved]) :
    hostWrite s o width w = s := by
  simp only [List.mem_cons, List.not_mem_nil, or_false] at h
  rcases h with h | h | h | h | h | h <;> rw [hostWrite, h]

end

theorem reachesLow_of_aligned {o : Nat} (h : o % 8 = 0) (width : Nat) : reachesLow o width = true := by
  simp [reachesLow, h]

/-- A 32-bit access to the upper half does not reach bits 31:0 (R41). -/
theorem reachesLow_upper {o width : Nat} (hw : width = 4 ∨ width = 8) (ha : o % width = 0) (h : o % 8 = 4) :
    reachesLow o width = false := by
  rcases hw with rfl | rfl
  · simp [reachesLow, h]
  · omega

/-! ### CTRL, STATUS, CMD -/

theorem supported_of_width {o width : Nat} (hw : width = 4 ∨ width = 8) (ho : o % 8 = 0) (hlt : o < 0x200) :
    Supported o width :=
  .of_slot (d := 0) hw ho hlt (Nat.zero_mod _) (by omega)

/-- Settles O46: a STATUS write is `clearStatus` alone. -/
theorem statusWriteOneToClear : Obligations.StatusWriteOneToClear := by
  intro s w width hw
  rw [hostWriteStep_eq (supported_of_width hw (by decide) (by decide)), hostWrite_status (by rfl),
    if_pos (reachesLow_of_aligned (by decide) _)]
  rfl

/-- Settles O44: BUSY and FAULT decide between acceptance and rejection. -/
theorem cmdAcceptance : Obligations.CmdAcceptance := by
  intro s w width hw
  have hsup : Supported 0x40 width := supported_of_width hw (by decide) (by decide)
  rw [hostWriteStep_eq hsup, hostReadStep_eq hsup, hostWrite_cmd (by rfl),
    if_pos (reachesLow_of_aligned (by decide) _)]
  refine ⟨fun hb hf => ?_, fun hbf => ?_, _, rfl, ?_⟩
  · have hidle : (busy { s with agenda := [] } || s.fault) = false := by
      rw [show busy { s with agenda := [] } = false from hb, hf]; rfl
    rw [if_neg (by simp [hidle])]
    exact ⟨_, rfl, rfl, rfl, rfl, rfl⟩
  · have hrej : (busy { s with agenda := [] } || s.fault) = true := by
      rw [Bool.or_eq_true]; exact hbf
    rw [if_pos hrej]
    rfl
  · change accessedPart 0 0x40 width = 0
    unfold accessedPart
    split_ifs
    · rfl
    · exact congrArg (BitVec.setWidth 64) BitVec.extractLsb'_zero

/-- Settles O45: BUSY is looked at after SRST and before the registers; the read-only registers take no write. -/
theorem busyWritesAreRejected : Obligations.BusyWritesAreRejected := by
  intro s o width w hw ha
  have aligned4 : o % 4 = 0 := by rcases hw with rfl | rfl <;> omega
  refine ⟨fun hb ho => ?_, fun hb ho hsrst => ?_, fun hb ho => ?_, fun ho => ?_⟩
  · have hb' : busy { s with agenda := [] } = true := hb
    rw [hostWriteStep_eq (.of_lt hw ha (by omega))]
    rcases ho with ⟨hge, hlt, hsrst⟩ | ⟨hge, hlt⟩ | ⟨hge, hlt⟩ | ⟨hge, hlt⟩
    · rw [hostWrite_ctrl (by rw [show o - o % 8 = 0x08 by omega]; rfl), if_neg, if_pos hb']
      · rfl
      · by_cases h12 : o < 0x0C
        · rw [hsrst h12, Bool.and_false]
          exact Bool.false_ne_true
        · simp [reachesLow_upper hw ha (by omega)]
    · rcases (by omega : o - o % 8 = 0x28 ∨ o - o % 8 = 0x30) with h | h
      · rw [hostWrite_ptr (by rw [h]; rfl), if_pos hb']
        rfl
      · rw [hostWrite_len (by rw [h]; rfl), if_pos hb']
        rfl
    · rw [hostWrite_cmd (by rw [show o - o % 8 = 0x40 by omega]; rfl),
        if_pos (reachesLow_of_aligned (by omega) _), if_pos (by simp [hb'])]
      rfl
    · rw [hostWrite_vreg (regAt_vreg (by omega) (by omega)), if_pos hb']
      rfl
  · subst ho
    rw [hostWriteStep_eq (.of_lt hw ha (by omega)), hostWrite_ctrl (by rfl),
      if_pos (by simp [hsrst, reachesLow_of_aligned])]
  · subst ho
    rw [hostWriteStep_eq (.of_lt hw ha (by omega)), hostWrite_status (by rfl),
      if_pos (reachesLow_of_aligned (by decide) _)]
  · rw [hostWriteStep_eq (.of_lt hw ha (by omega))]
    congr 1
    rcases ho with h | h | h | h | h | h | ⟨hb, h⟩
    · exact hostWrite_readOnly (by rw [show o - o % 8 = 0 by omega]; decide)
    · rcases (by omega : o - o % 8 = 0x18 ∨ o - o % 8 = 0x20) with h | h <;>
        exact hostWrite_readOnly (by rw [h]; decide)
    · exact hostWrite_readOnly (by rw [show o - o % 8 = 0x38 by omega]; decide)
    · rcases (by omega : o - o % 8 = 0x48 ∨ 0x50 ≤ o - o % 8) with h' | h'
      · exact hostWrite_readOnly (by rw [h']; decide)
      · exact hostWrite_readOnly (by rw [regAt_reserved h' (by omega)]; decide)
    · rw [hostWrite_status (by rw [show o - o % 8 = 0x10 by omega]; rfl),
        if_neg (by simp [reachesLow_upper hw ha (by omega)])]
    · rw [hostWrite_cmd (by rw [show o - o % 8 = 0x40 by omega]; rfl),
        if_neg (by simp [reachesLow_upper hw ha (by omega)])]
    · have hb' : busy { s with agenda := [] } = false := hb
      rw [hostWrite_ctrl (by rw [show o - o % 8 = 0x08 by omega]; rfl)]
      simp [reachesLow_upper hw ha (by omega), hb']

theorem getLsbD_bitAt (b : Bool) {i : Nat} (hi : i < 64) (k : Nat) :
    (bitAt b i).getLsbD k = (b && decide (k = i)) := by
  unfold bitAt
  cases b with
  | false => simp
  | true =>
    rw [if_pos rfl, Bool.true_and, BitVec.getLsbD_shiftLeft, BitVec.getLsbD_one]
    rw [Bool.eq_iff_iff]
    simp
    omega

/-- The bits of STATUS (R47). -/
theorem getLsbD_statusWord (s : State) (k : Nat) :
    (statusWord s).getLsbD k =
      (busy s && decide (k = 0) || s.done && decide (k = 1) || s.fault && decide (k = 2) ||
        s.cmdErr && decide (k = 3) || irqLine s && decide (k = 4)) := by
  simp only [statusWord, BitVec.getLsbD_or]
  iterate 5 rw [getLsbD_bitAt _ (by decide)]

/-- The bits of CTRL (R45). -/
theorem getLsbD_ctrlWord (s : State) (k : Nat) :
    (ctrlWord s).getLsbD k =
      (s.tailMode && decide (k = 0) || s.ieDone && decide (k = 1) || s.ieFault && decide (k = 2)) := by
  simp only [ctrlWord, BitVec.getLsbD_or]
  iterate 3 rw [getLsbD_bitAt _ (by decide)]

/-- CTRL reads the three fields of the word that set them (R45). -/
theorem ctrlWord_setCtrl (s : State) (w : DWord) : ctrlWord (setCtrl s w) = w &&& 7#64 := by
  have hmask : (7#64) = bitAt true 0 ||| bitAt true 1 ||| bitAt true 2 := by decide
  apply BitVec.eq_of_getLsbD_eq
  intro k _
  rw [getLsbD_ctrlWord, BitVec.getLsbD_and, hmask, BitVec.getLsbD_or, BitVec.getLsbD_or,
    getLsbD_bitAt _ (by decide), getLsbD_bitAt _ (by decide), getLsbD_bitAt _ (by decide)]
  simp only [setCtrl_tailMode, setCtrl_ieDone, setCtrl_ieFault, Bool.true_and]
  by_cases h0 : k = 0
  · simp [h0]
  · by_cases h1 : k = 1
    · simp [h1]
    · by_cases h2 : k = 2
      · simp [h2]
      · simp [h0, h1, h2]

/-- An 8-byte read takes the whole register. -/
theorem accessedPart_eight (x : DWord) (o : Nat) : accessedPart x o 8 = x := if_pos rfl

/-- Settles O47: STATUS is read whole, each bit at its place. -/
theorem statusReadsItsBits : Obligations.StatusReadsItsBits := by
  intro s
  refine ⟨_, hostReadStep_eq (supported_of_width (.inr rfl) (by decide) (by decide)), ?_⟩
  have hread : (hostRead { s with agenda := [] } 0x10 8).readData = statusWord s := accessedPart_eight _ 0x10
  simp only [hread, getLsbD_statusWord]
  refine ⟨by simp, by simp, by simp, by simp, by simp [irqLine], fun k hk => ?_⟩
  simp
  omega

/-- Settles O48: the write is `setCtrl`, and CTRL reads its fields back. -/
theorem ctrlWriteThenRead : Obligations.CtrlWriteThenRead := by
  intro s w width hw hb hsrst
  have hb' : busy { s with agenda := [] } = false := hb
  refine ⟨setCtrl { s with agenda := [] } w, _, ?_, rfl,
    hostReadStep_eq (supported_of_width (.inr rfl) (by decide) (by decide)), ?_⟩
  · rw [hostWriteStep_eq (supported_of_width hw (by decide) (by decide)), hostWrite_ctrl (by rfl)]
    simp only [reachesLow_of_aligned (show 0x08 % 8 = 0 by decide), hsrst, hb']
    rfl
  · exact (accessedPart_eight _ 0x08).trans (ctrlWord_setCtrl s w)

theorem ctrlWord_resetBlock (s : State) : ctrlWord (resetBlock s) = 0 := by
  simp [ctrlWord, bitAt, State.reset]

theorem statusWord_resetBlock (s : State) : statusWord (resetBlock s) = 0 := by
  simp [statusWord, busy, irqLine, bitAt, State.reset]

/-- Settles O49: both are `resetBlock`, which leaves every register at its reset value. -/
theorem softAndHardResetAgree : Obligations.SoftAndHardResetAgree := by
  intro s w width hw hsrst
  refine ⟨resetBlock { s with agenda := [] }, ?_, rfl, fun r => by cases r <;> rfl, rfl, rfl, rfl,
    ctrlWord_resetBlock _, statusWord_resetBlock _, rfl, rfl, rfl, rfl, rfl, rfl, rfl, rfl⟩
  rw [hostWriteStep_eq (supported_of_width hw (by decide) (by decide)), hostWrite_ctrl (by rfl),
    if_pos (by simp [hsrst, reachesLow_of_aligned])]

end Sys2Proof.Proofs
end

section
/-! SUPPORT. The bytes that a 4- or 8-byte access reaches, in a 64-bit register and in a slot of the VREG window
(R41, R57). -/

namespace Sys2Proof.Proofs

open Sys2Proof.Machine Sys2Proof.Safety

/-! ### Bytes of a 64-bit register -/

theorem extractLsb'_extractLsb' {n : Nat} (x : BitVec n) {a m b k : Nat} (h : b + k ≤ m) :
    (x.extractLsb' a m).extractLsb' b k = x.extractLsb' (a + b) k := by
  apply BitVec.eq_of_getLsbD_eq
  intro i hi
  rw [BitVec.getLsbD_extractLsb', BitVec.getLsbD_extractLsb', BitVec.getLsbD_extractLsb', Nat.add_assoc]
  simp [hi, show b + i < m by omega]

/-- The bytes of two words put together, the lower of `n` bytes. -/
theorem append_byte {a b : Nat} (hi : BitVec a) (lo : BitVec b) {n : Nat} (hb : b = 8 * n) (j : Nat) :
    (hi ++ lo).extractLsb' (8 * j) 8 =
      if j < n then lo.extractLsb' (8 * j) 8 else hi.extractLsb' (8 * (j - n)) 8 := by
  split_ifs with hj
  · exact BitVec.extractLsb'_append_eq_of_add_le (by omega)
  · rw [BitVec.extractLsb'_append_eq_of_le (by omega)]
    congr 1
    omega

/-- A read returns the bytes it addresses, zero-extended (R41). -/
theorem accessedPart_readsBytes (x : DWord) {o d width : Nat} (hw : width = 4 ∨ width = 8) (ho : o % 8 = d)
    (hdw : d + width ≤ 8) : ReadsBytes (accessedPart x o width) x d width := by
  intro j hj
  rcases hw with rfl | rfl
  · rw [accessedPart, if_neg (by decide), ho]
    split_ifs with hlt
    · rw [BitVec.extractLsb'_setWidth_of_le (by omega), extractLsb'_extractLsb' _ (by omega), Nat.mul_add]
    · apply BitVec.eq_of_getLsbD_eq
      intro k hk
      simp
      omega
  · obtain rfl : d = 0 := by omega
    rw [accessedPart_eight, if_pos hj, Nat.zero_add]

/-- A write replaces the bytes it addresses (R41). -/
theorem mergeWrite_byte (old w : DWord) {o d width j : Nat} (hw : width = 4 ∨ width = 8) (ho : o % 8 = d)
    (hd : d % width = 0) (hdw : d + width ≤ 8) (hj : j < 8) :
    (mergeWrite old w o width).extractLsb' (8 * j) 8 = writtenByte old w d width j := by
  unfold mergeWrite writtenByte
  rcases hw with rfl | rfl
  · rw [if_neg (by decide), ho]
    rcases (by omega : d = 0 ∨ d = 4) with rfl | rfl
    · rw [if_neg (by decide), append_byte _ _ (n := 4) (by decide)]
      split_ifs
      · rw [extractLsb'_extractLsb' _ (by omega), Nat.zero_add, Nat.sub_zero]
      · omega
      · omega
      · rw [extractLsb'_extractLsb' _ (by omega)]
        congr 1
        omega
    · rw [if_pos rfl, append_byte _ _ (n := 4) (by decide)]
      split_ifs
      · omega
      · rw [extractLsb'_extractLsb' _ (by omega), Nat.zero_add]
      · rw [extractLsb'_extractLsb' _ (by omega), Nat.zero_add]
      · omega
  · obtain rfl : d = 0 := by omega
    rw [if_pos rfl, if_pos (by omega), Nat.sub_zero]

/-! ### Bytes of a vector -/

/-- Byte `i` of a half is lane byte `8h + i` (R57). -/
theorem half64_byte (v : Vec) (h : Nat) {i : Nat} (hi : i < 8) :
    (half64 v h).extractLsb' (8 * i) 8 = laneByte v (8 * h + i) := by
  rw [half64, extractLsb'_extractLsb' _ (by omega), laneByte]
  congr 1
  omega

/-- Replacing a half replaces its eight lane bytes (R57). -/
theorem laneByte_setHalf (v : Vec) (w : DWord) {h j : Nat} (hh : h < 2) (hj : j < 16) :
    laneByte (setHalf v h w) j =
      if j / 8 = h then w.extractLsb' (8 * (j % 8)) 8 else laneByte v j := by
  unfold setHalf laneByte
  rcases (by omega : h = 0 ∨ h = 1) with rfl | rfl
  · rw [if_pos rfl, append_byte _ _ (n := 8) (by decide)]
    split_ifs
    · rw [show j % 8 = j by omega]
    · omega
    · omega
    · rw [extractLsb'_extractLsb' _ (by omega)]
      congr 1
      omega
  · rw [if_neg (by decide), append_byte _ _ (n := 8) (by decide)]
    split_ifs
    · omega
    · rw [extractLsb'_extractLsb' _ (by omega), Nat.zero_add]
    · rw [show j % 8 = j - 8 by omega]
    · omega

/-! ### Reads -/

/-- Every access to the slot that starts at `b` returns the bytes of its register, and is counted. -/
theorem hostReadThen_slot {s : State} {b d width : Nat} (rest : List Event) (hw : width = 4 ∨ width = 8)
    (hb : b % 8 = 0) (hin : b < 0x200) (hd : d % width = 0) (hdw : d + width ≤ 8) :
    ∃ t, hostReadThen s (b + d) width rest = .next t ∧
      ReadsBytes t.readData (readWord { s with agenda := rest } (regAt b)) d width ∧
      t = { s with agenda := rest, readData := t.readData, draws := s.draws + 1 } := by
  have hd8 : d < 8 := by rcases hw with rfl | rfl <;> omega
  refine ⟨_, hostReadThen_eq (.of_slot hw hb hin hd hdw) rest, ?_, rfl⟩
  have hread := accessedPart_readsBytes (readWord { s with agenda := rest } (regAt b)) hw (slot_byte hb hd8) hdw
  rwa [show (hostRead { s with agenda := rest } (b + d) width).readData = _ from rfl, hostRead,
    slot_start hb hd8]

theorem readWord_idle {s : State} (hb : busy s = false) (reg : RegName) :
    readWord s reg = regWord s (snapshot s) reg := by
  cases reg <;> simp [readWord, hb]

/-- The registers with a slot of their own, at their offsets (R40). -/
theorem regWord_of_mem {s : State} {sn : Snapshot} {o : Nat} {v : DWord}
    (h : (o, v) ∈ [(0x000, 0x0000_0007_4758_4831#64), (0x008, ctrlWord s), (0x010, statusWord s),
        (0x018, (causeCode s.cause).setWidth 64), (0x020, s.faultAddr), (0x028, sn.ptr), (0x030, s.len),
        (0x038, sn.result), (0x040, 0#64), (0x048, s.lastCmd.setWidth 64)]) :
    o % 8 = 0 ∧ o < 0x200 ∧ regWord s sn (regAt o) = v := by
  simp only [List.mem_cons, List.not_mem_nil, or_false, Prod.mk.injEq] at h
  rcases h with ⟨rfl, rfl⟩ | ⟨rfl, rfl⟩ | ⟨rfl, rfl⟩ | ⟨rfl, rfl⟩ | ⟨rfl, rfl⟩ | ⟨rfl, rfl⟩ | ⟨rfl, rfl⟩ |
    ⟨rfl, rfl⟩ | ⟨rfl, rfl⟩ | ⟨rfl, rfl⟩ <;>
    exact ⟨by decide, by decide, rfl⟩

/-- Settles O51: while idle a slot reads its register. -/
theorem registerReadsWhileIdle : Obligations.RegisterReadsWhileIdle := by
  intro s o d width v hb hw hd hdw ho
  obtain ⟨ho8, hin, hv⟩ : o % 8 = 0 ∧ o < 0x200 ∧ regWord s (snapshot s) (regAt o) = v := by
    rcases ho with hmem | ⟨hge, hlt, ho8, rfl⟩
    · exact regWord_of_mem hmem
    · exact ⟨ho8, by omega, by rw [regAt_reserved hge hlt]; rfl⟩
  obtain ⟨t, ht, hread, hframe⟩ := hostReadThen_slot (s := s) [] hw ho8 hin hd hdw
  refine ⟨t, ht, ?_, hframe⟩
  rw [readWord_idle (show busy { s with agenda := [] } = false from hb)] at hread
  rw [← hv]
  exact hread

/-! ### Writes of PTR and LEN -/

/-- Settles O52: an idle write is `mergeWrite`, which replaces the addressed bytes. -/
theorem pointerAndLengthWrites : Obligations.PointerAndLengthWrites := by
  intro s d width w hb hw hd hdw
  have hd8 : d < 8 := by rcases hw with rfl | rfl <;> omega
  have hb' : ¬ busy { s with agenda := [] } = true := by
    rw [show busy { s with agenda := [] } = false from hb]
    exact Bool.false_ne_true
  refine ⟨⟨{ s with agenda := [], ptr := mergeWrite s.ptr w (0x28 + d) width }, ?_, fun j hj => ?_, rfl⟩,
    { s with agenda := [], len := mergeWrite s.len w (0x30 + d) width }, ?_, fun j hj => ?_, rfl⟩
  · rw [hostWriteStep_eq (.of_slot hw (by decide) (by decide) hd hdw),
      hostWrite_ptr (by rw [slot_start (by decide) hd8]; rfl), if_neg hb']
  · exact mergeWrite_byte s.ptr w hw (slot_byte (by decide) hd8) hd hdw hj
  · rw [hostWriteStep_eq (.of_slot hw (by decide) (by decide) hd hdw),
      hostWrite_len (by rw [slot_start (by decide) hd8]; rfl), if_neg hb']
  · exact mergeWrite_byte s.len w hw (slot_byte (by decide) hd8) hd hdw hj

end Sys2Proof.Proofs
end

section
/-! SUPPORT. The operand map and the VREG window (R30 to R33, R57), and a step on an accepted command (R35, R55). -/

namespace Sys2Proof.Proofs

open Sys2Proof.Machine Sys2Proof.Safety

/-! ### The operand map -/

@[simp] theorem destOf_regIndex (r : VReg) : destOf (regIndex r) = some r := by cases r <;> rfl

@[simp] theorem srcOf_regIndex (r : VReg) : srcOf (regIndex r) = some (.reg r) := by cases r <;> rfl

theorem exists_regIndex : ∀ k : BitVec 4, k.toNat ≤ 9 →
    ∃ r ∈ [VReg.v0, .v1, .v2, .v3, .v4, .v5, .v6, .v7, .acc, .tmp], regIndex r = k := by decide

theorem destOf_eq_none : ∀ k : BitVec 4, 10 ≤ k.toNat → destOf k = none := by decide

/-- Settles O5: the map is read off its definition; an index up to 9 is that of a register. -/
theorem operandMap : Obligations.OperandMap := by
  refine ⟨rfl, rfl, fun i hi => by interval_cases i <;> rfl, fun k hk => ?_, destOf_eq_none, rfl, rfl, rfl, rfl,
    rfl, rfl, fun s => ⟨fun r => rfl, rfl, rfl, rfl, rfl, rfl⟩⟩
  obtain ⟨r, _, rfl⟩ := exists_regIndex k hk
  exact ⟨r, rfl, destOf_regIndex r, srcOf_regIndex r⟩

/-! ### The slots of the VREG window -/

/-- The whole slot `k`, the registers as in `sn`: what the operand map reads there, and 0 at the reserved indexes. -/
def slotValue (s : State) (sn : Snapshot) (k : Nat) : Vec :=
  ((srcOf (BitVec.ofNat 4 k)).map (srcValue { s with v := sn.v })).getD 0

theorem half64_zero (h : Nat) : half64 0 h = 0 := BitVec.extractLsb'_zero

theorem vregWord_eq_half64 (s : State) (sn : Snapshot) (k h : Nat) :
    vregWord s sn k h = half64 (slotValue s sn k) h := by
  unfold vregWord slotValue
  cases srcOf (BitVec.ofNat 4 k) with
  | none => exact (half64_zero h).symm
  | some a =>
    cases a with
    | zr => exact (half64_zero h).symm
    | reg | salt1 | salt2 | salt3 => rfl

theorem slotValue_reg (s : State) (sn : Snapshot) {k : Nat} {r : VReg} (h : (regIndex r).toNat = k) :
    slotValue s sn k = getReg sn.v r := by
  subst h
  rw [slotValue, BitVec.ofNat_toNat, BitVec.setWidth_eq, srcOf_regIndex]
  rfl

theorem slotValue_zero (s : State) (sn : Snapshot) {k : Nat} (h : k = 10 ∨ k = 11 ∨ k = 12) :
    slotValue s sn k = 0 := by
  rcases h with rfl | rfl | rfl <;> rfl

theorem slotValue_salt1 (s : State) (sn : Snapshot) {k : Nat} (h : k = 13) : slotValue s sn k = s.salt1 := by
  subst h; rfl

theorem slotValue_salt2 (s : State) (sn : Snapshot) {k : Nat} (h : k = 14) : slotValue s sn k = s.salt2 := by
  subst h; rfl

theorem slotValue_salt3 (s : State) (sn : Snapshot) {k : Nat} (h : k = 15) : slotValue s sn k = s.salt3 := by
  subst h; rfl

/-- A byte of a slot lies in the half its number says (R57). -/
theorem vreg_offset (k d : Nat) : 0x100 + 16 * k + d = 0x100 + 16 * k + 8 * (d / 8) + d % 8 := by omega

/-- An aligned access inside a slot stays inside one half of it. -/
theorem half_access {d width : Nat} (hw : width = 4 ∨ width = 8) (hd : d % width = 0) (hdw : d + width ≤ 16) :
    d / 8 < 2 ∧ (d % 8) % width = 0 ∧ d % 8 + width ≤ 8 := by
  rcases hw with rfl | rfl <;> omega

/-- Settles O54: while idle a slot reads what the operand map reads there. -/
theorem vregWindowReads : Obligations.VregWindowReads := by
  intro s k d width hb hw hd hdw hk
  obtain ⟨hh, hd', hdw'⟩ := half_access hw hd hdw
  obtain ⟨t, ht, hread, hframe⟩ :=
    hostReadThen_slot (s := s) (b := 0x100 + 16 * k + 8 * (d / 8)) [] hw (by omega) (by omega) hd' hdw'
  rw [← vreg_offset] at ht
  refine ⟨t, slotValue s (snapshot s) k, ht, fun r => slotValue_reg s _, slotValue_zero s _, slotValue_salt1 s _,
    slotValue_salt2 s _, slotValue_salt3 s _, fun j hj => ?_, hframe⟩
  rw [readWord_idle (show busy { s with agenda := [] } = false from hb), regAt_vreg_slot hk hh] at hread
  have hword : regWord { s with agenda := [] } (snapshot { s with agenda := [] }) (.vreg k (d / 8)) =
      half64 (slotValue s (snapshot s) k) (d / 8) := vregWord_eq_half64 s _ k _
  rw [hread j hj, hword]
  split_ifs
  · rw [half64_byte _ _ (by omega)]
    congr 1
    omega
  · rfl

/-- A byte of a register's slot after a write of `width` bytes at byte `d` of the slot (R57). -/
theorem laneByte_slot_write (v : Vec) (w : DWord) {o d width j : Nat} (hw : width = 4 ∨ width = 8)
    (ho : o % 8 = d % 8) (hd : d % width = 0) (hdw : d + width ≤ 16) (hj : j < 16) :
    laneByte (setHalf v (d / 8) (mergeWrite (half64 v (d / 8)) w o width)) j =
      if d ≤ j ∧ j < d + width then w.extractLsb' (8 * (j - d)) 8 else laneByte v j := by
  obtain ⟨hh, hd', hdw'⟩ := half_access hw hd hdw
  rw [laneByte_setHalf _ _ hh hj]
  by_cases hhalf : j / 8 = d / 8
  · rw [if_pos hhalf, mergeWrite_byte _ _ hw ho hd' hdw' (by omega), writtenByte, half64_byte _ _ (by omega)]
    split_ifs
    · congr 1
      omega
    · omega
    · omega
    · congr 1
      omega
  · rw [if_neg hhalf, if_neg (by omega)]

/-- Settles O53: registers 0 to 9 take the addressed bytes, the other slots none. -/
theorem vregWindowWrites : Obligations.VregWindowWrites := by
  intro s k d width w hb hw hd hdw hk
  obtain ⟨hh, hd', hdw'⟩ := half_access hw hd hdw
  have hd8 : d % 8 < 8 := Nat.mod_lt _ (by decide)
  have hreg : regAt (0x100 + 16 * k + d - (0x100 + 16 * k + d) % 8) = .vreg k (d / 8) := by
    rw [vreg_offset, slot_start (by omega) hd8, regAt_vreg_slot hk hh]
  have hstep : hostWriteStep s (0x100 + 16 * k + d) width w =
      .next (writeVreg { s with agenda := [] } k (d / 8) w (0x100 + 16 * k + d) width) := by
    have hsup : Supported (0x100 + 16 * k + d) width := by
      rw [vreg_offset]
      exact .of_slot hw (by omega) (by omega) hd' hdw'
    rw [hostWriteStep_eq hsup, hostWrite_vreg hreg, show busy { s with agenda := [] } = false from hb]
    rfl
  rw [hstep, writeVreg]
  constructor
  · rintro r rfl
    rw [BitVec.ofNat_toNat, BitVec.setWidth_eq, destOf_regIndex]
    refine ⟨_, rfl, fun j hj => ?_, fun q hq => getReg_setReg_other _ _ hq, rfl⟩
    rw [writeReg_v, getReg_setReg_same]
    exact laneByte_slot_write _ _ hw (by omega) hd hdw hj
  · intro hge
    rw [destOf_eq_none _ (by simp; omega)]

/-! ### A step on an accepted command -/

/-- Settles O9: an empty agenda lets the engine run, a tick is one internal step, and an idle engine does nothing. -/
theorem stepRunsDecodedCommand : Obligations.StepRunsDecodedCommand := by
  have run : ∀ (s : State) (c : CmdWord) (i : Instr), AtCommand s c → decode c = .ok i → step s = exec i s := by
    rintro s c i ⟨hagenda, ⟨j, hseq⟩, hct⟩ hd
    simp only [step, hagenda]
    exact AtWord.engineRun_legal ⟨hct, j, hseq⟩ hd
  refine ⟨run, fun s w i hw => ?_, fun s c i rest hagenda hseq hct hd hi => ?_, fun s hagenda hseq => ?_⟩
  · refine run _ (BitVec.ofNat 32 (w % 2 ^ 32)) i ⟨rfl, ⟨0, rfl⟩, rfl⟩ ?_
    unfold decodeTableWord at hw
    cases hd : decode (BitVec.ofNat 32 (w % 2 ^ 32)) with
    | error e => rw [hd] at hw; cases hw
    | ok k => rw [hd] at hw; cases hw; rfl
  · simp only [step, hagenda]
    exact AtWord.engineTick_other (s := { s with agenda := rest }) ⟨hct, 0, hseq⟩ hd hi
  · simp only [step, hagenda]
    exact engineRun_idle hseq

end Sys2Proof.Proofs
end

section
/-! SUPPORT. The values a read while BUSY may return (R43): an instant that was kept, the present one, or one ahead. -/

namespace Sys2Proof.Proofs

open Sys2Proof.Machine Sys2Proof.Safety

/-! ### The value read -/

/-- A read of a register that moves while a command runs has its value of some instant. -/
theorem hostReadThen_instant {s : State} {b d width : Nat} {reg : RegName} (rest : List Event)
    (hw : width = 4 ∨ width = 8) (hb : b % 8 = 0) (hin : b < 0x200) (hd : d % width = 0) (hdw : d + width ≤ 8)
    (hreg : regAt b = reg) (hmoves : readWord { s with agenda := rest } reg = busyWord { s with agenda := rest } reg) :
    ∃ t sn, hostReadThen s (b + d) width rest = .next t ∧ sn ∈ instants s rest ∧
      ReadsBytes t.readData (regWord s sn reg) d width ∧
      t = { s with agenda := rest, readData := t.readData, draws := s.draws + 1 } := by
  obtain ⟨t, ht, hread, hframe⟩ := hostReadThen_slot (s := s) rest hw hb hin hd hdw
  obtain ⟨sn, hsn, hval⟩ := busyWord_instant { s with agenda := rest } reg
  rw [hreg, hmoves, hval] at hread
  have hword : regWord { s with agenda := rest } sn reg = regWord s sn reg := by cases reg <;> rfl
  exact ⟨t, sn, ht, hsn, hword ▸ hread, hframe⟩

theorem busyReads {s : State} {d width : Nat} (rest : List Event) (hb : busy s = true)
    (hw : width = 4 ∨ width = 8) (hd : d % width = 0) (hdw : d + width ≤ 8) :
    (∃ t sn, hostReadThen s (0x28 + d) width rest = .next t ∧ sn ∈ instants s rest ∧
      ReadsBytes t.readData sn.ptr d width ∧
      t = { s with agenda := rest, readData := t.readData, draws := s.draws + 1 }) ∧
    (∃ t sn, hostReadThen s (0x38 + d) width rest = .next t ∧ sn ∈ instants s rest ∧
      ReadsBytes t.readData sn.result d width ∧
      t = { s with agenda := rest, readData := t.readData, draws := s.draws + 1 }) := by
  have hb' : busy { s with agenda := rest } = true := hb
  exact ⟨hostReadThen_instant (reg := .ptr) rest hw (by decide) (by decide) hd hdw rfl (if_pos hb'),
    hostReadThen_instant (reg := .result) rest hw (by decide) (by decide) hd hdw rfl (if_pos hb')⟩

theorem busyReads_vreg {s : State} {k h d width : Nat} (rest : List Event) (hb : busy s = true)
    (hw : width = 4 ∨ width = 8) (hd : d % width = 0) (hdw : d + width ≤ 8) (hk : k < 16) (hh : h < 2) :
    ∃ t sn x, hostReadThen s (0x100 + 16 * k + 8 * h + d) width rest = .next t ∧
      sn ∈ instants s rest ∧ (∀ r, (regIndex r).toNat = k → x = getReg sn.v r) ∧
      ((k = 10 ∨ k = 11 ∨ k = 12) → x = 0) ∧ (k = 13 → x = s.salt1) ∧ (k = 14 → x = s.salt2) ∧
      (k = 15 → x = s.salt3) ∧ ReadsBytes t.readData (x.extractLsb' (64 * h) 64) d width ∧
      t = { s with agenda := rest, readData := t.readData, draws := s.draws + 1 } := by
  have hb' : busy { s with agenda := rest } = true := hb
  obtain ⟨t, sn, ht, hsn, hread, hframe⟩ :=
    hostReadThen_instant (s := s) rest hw (by omega) (by omega) hd hdw (regAt_vreg_slot hk hh) (if_pos hb')
  rw [regWord, vregWord_eq_half64] at hread
  exact ⟨t, sn, slotValue s sn k, ht, hsn, fun r => slotValue_reg s sn, slotValue_zero s sn, slotValue_salt1 s sn,
    slotValue_salt2 s sn, slotValue_salt3 s sn, hread, hframe⟩

theorem busyReads_fixed {s : State} {o d width : Nat} {v : DWord} (rest : List Event)
    (hw : width = 4 ∨ width = 8) (hd : d % width = 0) (hdw : d + width ≤ 8)
    (h : (o, v) ∈ [(0x00, 0x0000_0007_4758_4831#64), (0x08, ctrlWord s), (0x10, statusWord s),
        (0x18, (causeCode s.cause).setWidth 64), (0x20, s.faultAddr), (0x30, s.len), (0x40, 0#64),
        (0x48, s.lastCmd.setWidth 64)]) :
    ∃ t, hostReadThen s (o + d) width rest = .next t ∧ ReadsBytes t.readData v d width ∧
      t = { s with agenda := rest, readData := t.readData, draws := s.draws + 1 } := by
  simp only [List.mem_cons, List.not_mem_nil, or_false, Prod.mk.injEq] at h
  rcases h with ⟨rfl, rfl⟩ | ⟨rfl, rfl⟩ | ⟨rfl, rfl⟩ | ⟨rfl, rfl⟩ | ⟨rfl, rfl⟩ | ⟨rfl, rfl⟩ | ⟨rfl, rfl⟩ |
    ⟨rfl, rfl⟩ <;>
    exact hostReadThen_slot rest hw (by decide) (by decide) hd hdw

/-! ### The instants behind -/

/-- What a step keeps of the instants: those behind `t` were behind `s`, are `s` itself or were ahead, and none of
those behind or at `s` is lost. -/
def InstantsKept (ahead : List Snapshot) (s t : State) : Prop :=
  (∀ sn ∈ t.history, sn ∈ s.history ∨ sn = snapshot s ∨ sn ∈ ahead) ∧
    ∀ sn ∈ snapshot s :: s.history, sn ∈ snapshot t :: t.history

theorem instantsKept_of_eq {ahead : List Snapshot} {s t : State} (hs : snapshot t = snapshot s)
    (hh : t.history = s.history) : InstantsKept ahead s t :=
  ⟨fun sn h => .inl (hh ▸ h), fun sn h => by rwa [hs, hh]⟩

theorem InstantsKept.congr_left {ahead : List Snapshot} {s u t : State} (h : InstantsKept ahead u t)
    (hs : snapshot u = snapshot s) (hh : u.history = s.history) : InstantsKept ahead s t := by
  unfold InstantsKept at h ⊢
  rwa [hs, hh] at h

theorem instantsKept_advance (ahead : List Snapshot) (s u : State) (hu : u = withEffect s u) :
    InstantsKept ahead s (advance (snapshot s) u) := by
  have hhist : (advance (snapshot s) u).history = snapshot s :: s.history := by rw [hu]; rfl
  refine ⟨fun sn h => ?_, fun sn h => ?_⟩
  · rw [hhist] at h
    exact (List.mem_cons.mp h).elim (fun h => .inr (.inl h)) .inl
  · rw [hhist]
    exact List.mem_cons_of_mem _ h

theorem instantsKept_engineTick {ahead : List Snapshot} {s t : State} (h : engineTick s = .next t)
    (hb : busy t = true) : InstantsKept ahead s t := by
  cases engineTick_ticked h with
  | idle => exact instantsKept_of_eq rfl rfl
  | ended _ he =>
    obtain rfl := he.eq_of_busy hb
    exact instantsKept_of_eq rfl rfl
  | launched => exact instantsKept_of_eq rfl rfl
  | line _ _ wrote => exact instantsKept_advance ahead s _ wrote

/-- A host access while BUSY resets the block or leaves every instant as it is. -/
theorem access_running {s t : State} {a : HostAccess} (hs : busy s = true) (h : accessWith hostRead s a = .next t)
    (ht : busy t = true) : snapshot t = snapshot s ∧ t.history = s.history := by
  rcases accessWith_next h with ⟨_, _, _, _, rfl⟩ | ⟨_, _, w, _, _, rfl⟩
  · exact ⟨rfl, rfl⟩
  · rcases hostWrite_busy hs _ _ w with hw | hw | hw | hw <;> rw [hw] at ht ⊢
    · cases ht
    · exact ⟨rfl, rfl⟩
    · exact ⟨rfl, rfl⟩
    · exact ⟨rfl, rfl⟩

/-- The engine does not start a command by itself. -/
theorem busy_of_engineTick {s t : State} (h : engineTick s = .next t) (ht : busy t = true) : busy s = true := by
  by_contra hs
  rw [engineTick_idle ((busy_eq_false_iff s).mp (by simpa using hs))] at h
  cases h
  exact hs ht

theorem instantsKept_runEvent {ahead : List Snapshot} {s t : State} {e : Event} (hs : busy s = true)
    (h : runEvent e s = .next t) (ht : busy t = true) : InstantsKept ahead s t := by
  cases e with
  | host a =>
    obtain ⟨hsn, hh⟩ := access_running hs h ht
    exact instantsKept_of_eq hsn hh
  | tick => exact instantsKept_engineTick h ht
  | sameCycle a =>
    simp only [runEvent, eventWith] at h
    split at h
    · rename_i u hu
      have hub : busy u = true := busy_of_engineTick (s := { u with agenda := s.agenda }) h ht
      obtain ⟨hsn, hh⟩ := access_running (show busy { s with agenda := .tick :: s.agenda } = true from hs) hu hub
      have hkept := instantsKept_engineTick (ahead := ahead) h ht
      exact hkept.congr_left hsn hh
    · cases h
    · cases h
  | hardReset => cases h; cases ht
  | memWrite a x => cases h; exact instantsKept_of_eq rfl rfl

/-- A run of lines that ends waiting has kept the instants it came through, which were ahead of it. -/
theorem instantsKept_runMicro {p : List MicroOp} {s t : State} (h : conclude (runMicro p s) = .next t)
    (ht : busy t = true) : InstantsKept (microAhead p s) s t := by
  induction p generalizing s with
  | nil => cases h; cases ht
  | cons op p ih =>
    rcases microStep_cases op s with ⟨u, hu, hm⟩ | ⟨c, a, _, hm⟩ | ⟨_, hm⟩ | ⟨_, hm⟩ <;>
      simp only [runMicro, hm] at h
    · obtain ⟨hbehind, hkept⟩ := ih h
      obtain ⟨hline, hpush⟩ := instantsKept_advance [] s u (microEffect_done hu)
      rw [microAhead_done hm]
      refine ⟨fun sn hsn => ?_, fun sn hsn => hkept sn (hpush sn hsn)⟩
      rcases hbehind sn hsn with h' | rfl | h'
      · rcases hline sn h' with h' | h' | h'
        · exact .inl h'
        · exact .inr (.inl h')
        · cases h'
      · exact .inr (.inr (List.mem_cons_self ..))
      · exact .inr (.inr (List.mem_cons_of_mem _ h'))
    · cases h; cases ht
    · cases h; exact instantsKept_of_eq rfl rfl
    · cases h

theorem instantsKept_engineRun {s t : State} (h : engineRun s = .next t) (ht : busy t = true) :
    InstantsKept (engineAhead s) s t := by
  rcases engine_position s with hidle | ⟨ct, j, hline⟩ | ⟨c, hword⟩
  · rw [engineRun_idle hidle] at h
    cases h
    exact instantsKept_of_eq rfl rfl
  · rw [hline.engineRun] at h
    rw [hline.engineAhead]
    exact instantsKept_runMicro h ht
  · cases hd : decode c with
    | error e =>
      rw [hword.engineRun_illegal hd] at h
      cases h
      cases ht
    | ok i =>
      rw [hword.engineRun_legal hd] at h
      by_cases hi : i = .hash
      · subst hi
        simp only [exec, execHash, hashEffect] at h
        rcases hashLaunch_cases s with hl | hl | hl
        · rw [hl] at h; cases h; cases ht
        · rw [hl] at h; cases h
        · rw [hword.engineAhead_launched hd hl]
          rw [hl] at h
          exact instantsKept_runMicro (s := { s with counters := some (hashCounters s.len.toNat) }) h ht
      · obtain rfl := (exec_ended hi h).eq_of_busy ht
        exact instantsKept_of_eq rfl rfl

theorem instantsKept_step {s t : State} (hs : busy s = true) (h : step s = .next t) (ht : busy t = true) :
    InstantsKept (commandAhead s) s t := by
  unfold step at h
  split at h
  · rename_i hagenda
    rw [commandAhead_of_empty hagenda]
    exact instantsKept_engineRun h ht
  · rename_i e rest hagenda
    exact instantsKept_runEvent (s := { s with agenda := rest }) hs h ht

end Sys2Proof.Proofs
end

section
/-! SUPPORT. The instants ahead are those the machine comes to (R43): the agenda's events see nothing of what is behind
them on it, and every instant of a run at once is one of some number of ticks. -/

namespace Sys2Proof.Proofs

open Sys2Proof.Machine Sys2Proof.Safety

/-! ### Events see nothing of the rest of the agenda -/

/-- A host access as the instants ahead take it: a read is counted, whatever it returns. -/
def accessAhead (s : State) (a : HostAccess) : Host.Outcome State Fault Refusal :=
  accessWith (fun s _ _ => countRead s) s a

/-- An event of the agenda as the instants ahead take it. -/
def eventAhead (e : Event) (s : State) : Host.Outcome State Fault Refusal :=
  eventWith (fun s _ _ => countRead s) e s

theorem aheadOver_next {e : Event} {s t : State} (h : eventAhead e s = .next t) (es : List Event) :
    aheadOver (e :: es) s =
      if busy t then snapshot t :: aheadOver es t else if t.done || t.fault then [snapshot t] else [] := by
  rw [aheadOver_cons, show eventWith (fun s _ _ => countRead s) e s = .next t from h]

theorem aheadOver_refused {e : Event} {s : State} {r : Refusal} (h : eventAhead e s = .refused r)
    (es : List Event) : aheadOver (e :: es) s = [] := by
  rw [aheadOver_cons, show eventWith (fun s _ _ => countRead s) e s = .refused r from h]

section
variable (es : List Event) (r : DWord)

theorem writeVreg_outside (s : State) (k h : Nat) (w : DWord) (o width : Nat) :
    writeVreg (outside es r s) k h w o width = outside es r (writeVreg s k h w o width) := by
  unfold writeVreg
  cases destOf (BitVec.ofNat 4 k) <;> rfl

theorem hostWrite_outside (s : State) (o width : Nat) (w : DWord) :
    hostWrite (outside es r s) o width w = outside es r (hostWrite s o width w) := by
  unfold hostWrite
  cases regAt (o - o % 8) with
  | ctrl | status | ptr | len | cmd =>
    simp only [busy_outside, apply_ite (outside es r)]
    rfl
  | vreg k h =>
    simp only [busy_outside, apply_ite (outside es r), writeVreg_outside]
    rfl
  | id | cause | faultAddr | result | lastCmd | reserved => rfl

/-- A host access sees of the agenda only the value a read while BUSY returns. -/
theorem access_outside (s : State) (a : HostAccess) :
    ∃ r', accessWith hostRead (outside es r s) a =
      mapNext (outside es r') (accessAhead s a) := by
  cases a with
  | read addr width =>
    refine ⟨(hostRead (outside es r s) (blockOffset s addr) width).readData, ?_⟩
    rw [accessAhead, accessWith, accessWith, show blockOffset (outside es r s) addr = blockOffset s addr from rfl]
    cases accessRefusal (blockOffset s addr) width <;> rfl
  | write addr width w =>
    refine ⟨r, ?_⟩
    rw [accessAhead, accessWith, accessWith, show blockOffset (outside es r s) addr = blockOffset s addr from rfl]
    cases accessRefusal (blockOffset s addr) width with
    | none => exact congrArg Host.Outcome.next (hostWrite_outside es r s _ width w)
    | some e => rfl

theorem mapNext_outside_outside (es' : List Event) (r' : DWord) (x : Host.Outcome State Fault Refusal) :
    mapNext (outside es r) (mapNext (outside es' r') x) = mapNext (outside es r) x := by
  cases x <;> rfl

theorem runEvent_outside (e : Event) (s : State) :
    ∃ r', runEvent e (outside es r s) =
      mapNext (outside es r') (eventAhead e s) := by
  cases e with
  | host a => exact access_outside es r s a
  | tick => exact ⟨r, engineTick_outside es r s⟩
  | sameCycle a =>
    obtain ⟨r', hr'⟩ := access_outside (.tick :: es) r { s with agenda := .tick :: s.agenda } a
    refine ⟨r', ?_⟩
    change (match accessWith hostRead (outside (.tick :: es) r s) a with
      | .next s' => engineTick { s' with agenda := es }
      | .fault x => .fault x
      | .refused x => .refused x) = _
    rw [show outside (.tick :: es) r s = outside (.tick :: es) r { s with agenda := .tick :: s.agenda } from rfl, hr',
      eventAhead, eventWith, ← accessAhead]
    cases accessAhead { s with agenda := .tick :: s.agenda } a with
    | next u =>
      have hreal := engineTick_outside es r' u
      have hahead := engineTick_outside s.agenda u.readData u
      change engineTick (outside es r' u) = mapNext _ (engineTick (outside s.agenda u.readData u))
      rw [hreal, hahead, mapNext_outside_outside]
    | fault | refused => rfl
  | hardReset => exact ⟨r, rfl⟩
  | memWrite a x => exact ⟨r, rfl⟩

theorem step_event (e : Event) (s : State) :
    ∃ r', step (outside (e :: es) r s) =
      mapNext (outside es r') (eventAhead e s) :=
  runEvent_outside es r e s

theorem step_run (s : State) : step (outside [] r s) = engineRun (outside [] r s) := rfl

theorem inv_outside {s : State} : Inv (outside es r s) ↔ Inv s :=
  ⟨fun h => ⟨h.memory, h.idle, h.counters, h.running, h.faultCause⟩,
    fun h => ⟨h.memory, h.idle, h.counters, h.running, h.faultCause⟩⟩

end

/-- The events of the instants ahead keep the invariant, as those of a step do. -/
theorem inv_event {s t : State} {e : Event} (h : eventAhead e s = .next t) (hs : Inv s) :
    Inv t := by
  obtain ⟨r', hr'⟩ := runEvent_outside [] 0 e s
  rw [h] at hr'
  exact (inv_outside [] r').mp (inv_keptByParts.event hr' ((inv_outside [] 0).mpr hs))

/-! ### Runs through busy states -/

/-- In `n` steps the machine comes from `s` to `t` by way of busy states alone. -/
def Reaches (s : State) (n : Nat) (t : State) : Prop :=
  core.run n s = .next t ∧ ∀ m < n, ∃ u : State, core.run m s = .next u ∧ busy u = true

/-- The command runs, or it has ended by itself (R310, R311). -/
def CommandInstant (t : State) : Prop := busy t = true ∨ t.done = true ∨ t.fault = true

theorem comesTo_iff (s : State) (k n : Nat) (t : State) :
    ComesTo s k n t ↔
      Reaches (outside (s.agenda ++ List.replicate k .tick) s.readData s) n t ∧ CommandInstant t :=
  and_assoc.symm

theorem run_zero (s : State) : core.run 0 s = .next s := by simp only [Host.Core.run]

theorem reaches_zero_iff {s t : State} : Reaches s 0 t ↔ s = t := by
  constructor
  · rintro ⟨h, _⟩
    rw [run_zero] at h
    exact Host.Outcome.next.inj h
  · rintro rfl
    exact ⟨run_zero s, fun m hm => absurd hm (Nat.not_lt_zero m)⟩

theorem reaches_succ_iff {s t : State} {n : Nat} :
    Reaches s (n + 1) t ↔ busy s = true ∧ ∃ s', step s = .next s' ∧ Reaches s' n t := by
  constructor
  · rintro ⟨hrun, hbusy⟩
    obtain ⟨u, hu, hb⟩ := hbusy 0 (Nat.succ_pos n)
    rw [run_zero] at hu
    cases hu
    refine ⟨hb, ?_⟩
    cases hstep : step s with
    | next s' =>
      refine ⟨s', rfl, (run_succ_next hstep n).symm.trans hrun, fun m hm => ?_⟩
      obtain ⟨u, hu, hub⟩ := hbusy (m + 1) (Nat.succ_lt_succ hm)
      exact ⟨u, (run_succ_next hstep m).symm.trans hu, hub⟩
    | fault e => cases e
    | refused e =>
      rw [run_succ_refused hstep n] at hrun
      cases hrun
  · rintro ⟨hb, s', hstep, hrun, hbusy⟩
    refine ⟨(run_succ_next hstep n).trans hrun, fun m hm => ?_⟩
    cases m with
    | zero => exact ⟨s, run_zero s, hb⟩
    | succ m =>
      obtain ⟨u, hu, hub⟩ := hbusy m (Nat.lt_of_succ_lt_succ hm)
      exact ⟨u, (run_succ_next hstep m).trans hu, hub⟩

/-! ### Every instant ahead is come to -/

/-- With the events `es` first and then enough ticks, the machine comes to an instant of the command that reads as
`sn`, whatever the last read value was. -/
def ComesToInstant (es : List Event) (s : State) (sn : Snapshot) : Prop :=
  ∃ k, ∀ r, ∃ n t, Reaches (outside (es ++ List.replicate k .tick) r s) n t ∧ CommandInstant t ∧ snapshot t = sn

theorem comesToInstant_now (es : List Event) {s : State} (h : CommandInstant s) :
    ComesToInstant es s (snapshot s) :=
  ⟨0, fun _ => ⟨0, _, reaches_zero_iff.mpr rfl, h, rfl⟩⟩

theorem comesToInstant_tick {s t : State} {sn : Snapshot} (hb : busy s = true) (ht : engineTick s = .next t)
    (h : ComesToInstant [] t sn) : ComesToInstant [] s sn := by
  obtain ⟨k, hk⟩ := h
  refine ⟨k + 1, fun r => ?_⟩
  obtain ⟨n, u, hreach, hu⟩ := hk r
  refine ⟨n + 1, u, reaches_succ_iff.mpr ⟨hb, _, ?_, hreach⟩, hu⟩
  rw [List.nil_append, List.replicate_succ, step_tick, ht]
  rfl

theorem comesToInstant_event {e : Event} {es : List Event} {s t : State} {sn : Snapshot} (hb : busy s = true)
    (ht : eventAhead e s = .next t) (h : ComesToInstant es t sn) :
    ComesToInstant (e :: es) s sn := by
  obtain ⟨k, hk⟩ := h
  refine ⟨k, fun r => ?_⟩
  obtain ⟨r', hstep⟩ := step_event (es ++ List.replicate k .tick) r e s
  rw [ht] at hstep
  obtain ⟨n, u, hreach, hu⟩ := hk r'
  exact ⟨n + 1, u, reaches_succ_iff.mpr ⟨hb, _, hstep, hreach⟩, hu⟩

theorem microAhead_comesTo {p : List MicroOp} {s : State} {ct : HashCounters} {j : Nat} {sn : Snapshot}
    (h : AtLine s ct j) (hp : (hashProgram ct).drop j = p) (hsn : sn ∈ microAhead p s) : ComesToInstant [] s sn := by
  induction p generalizing s j with
  | nil => cases hsn
  | cons op p ih =>
    obtain ⟨hj, hp'⟩ := getElem?_of_drop_eq_cons hp
    have htick := h.engineTick_line hj
    cases hm : microStep op s with
    | done t =>
      rw [hm] at htick
      rw [microAhead_done hm] at hsn
      refine comesToInstant_tick h.busy htick ?_
      rcases List.mem_cons.mp hsn with rfl | hsn
      · exact comesToInstant_now [] (.inl (h.next hm).busy)
      · exact ih (h.next hm) hp' hsn
    | fault | stuck | outside =>
      rw [microAhead, hm] at hsn
      cases hsn

theorem commandInstant_of_ended {s t : State} (hb : busy s = true) (h : CommandEnded s t) : CommandInstant t := by
  rcases h.idle_or_waiting with ⟨_, h⟩ | rfl
  · exact .inr h
  · exact .inl hb

theorem engineAhead_comesTo {s : State} {sn : Snapshot} (hs : StartsAtZero s) (hsn : sn ∈ engineAhead s) :
    ComesToInstant [] s sn := by
  rcases engine_position s with hidle | ⟨ct, j, hline⟩ | ⟨c, hword⟩
  · rw [engineAhead_idle hidle] at hsn
    cases hsn
  · rw [hline.engineAhead] at hsn
    exact microAhead_comesTo hline rfl hsn
  · cases hd : decode c with
    | error e =>
      rw [hword.engineAhead_illegal hd] at hsn
      cases hsn
    | ok i =>
      by_cases hi : i = .hash
      · subst hi
        have htick := hword.engineTick_hash hd
        obtain ⟨hct, j, hseq⟩ := id hword
        obtain rfl := hs c j hseq hct
        rcases hashLaunch_cases s with hl | hl | hl
        · rw [hword.engineAhead_not_launched hd (by simp [hl])] at hsn
          cases hsn
        · rw [hword.engineAhead_not_launched hd (by simp [hl])] at hsn
          cases hsn
        · rw [hword.engineAhead_launched hd hl] at hsn
          rw [hl] at htick
          exact comesToInstant_tick hword.busy htick (microAhead_comesTo (atLine_launched hseq) rfl hsn)
      · have htick := hword.engineTick_other hd hi
        cases he : exec i s with
        | next t =>
          rw [hword.engineAhead_other hd hi he, List.mem_singleton] at hsn
          subst hsn
          exact comesToInstant_tick hword.busy (htick.trans he)
            (comesToInstant_now [] (commandInstant_of_ended hword.busy (exec_ended hi he)))
        | fault e => cases e
        | refused e =>
          rw [hword.engineAhead_refused hd hi he] at hsn
          cases hsn

theorem aheadOver_comesTo {es : List Event} {s : State} {sn : Snapshot} (hinv : Inv s) (hb : busy s = true)
    (hsn : sn ∈ aheadOver es s) : ComesToInstant es s sn := by
  induction es generalizing s with
  | nil => exact engineAhead_comesTo (inv_startsAtZero hinv) hsn
  | cons e es ih =>
    cases he : eventAhead e s with
    | next t =>
      rw [aheadOver_next he] at hsn
      refine comesToInstant_event hb he ?_
      split_ifs at hsn with htb hend
      · rcases List.mem_cons.mp hsn with rfl | hsn
        · exact comesToInstant_now es (.inl htb)
        · exact ih (inv_event he hinv) htb hsn
      · rw [List.mem_singleton] at hsn
        subst hsn
        exact comesToInstant_now es (.inr ((Bool.or_eq_true ..).mp hend))
      · cases hsn
    | fault e => cases e
    | refused r =>
      rw [aheadOver_refused he] at hsn
      cases hsn

/-! ### Every instant come to was ahead -/

/-- The present instant and those ahead, the engine left alone. -/
def presentAndAhead (s : State) : List Snapshot := snapshot s :: engineAhead s

theorem presentAndAhead_idle {s : State} (h : s.seq = .idle) : presentAndAhead s = [snapshot s] := by
  rw [presentAndAhead, engineAhead_idle h]

/-- An end that changes no register leaves nothing but the present instant. -/
theorem presentAndAhead_subset_of_idle {s t : State} (ht : t.seq = .idle) (hsn : snapshot t = snapshot s) :
    presentAndAhead t ⊆ presentAndAhead s := by
  rw [presentAndAhead_idle ht, hsn]
  exact List.cons_subset_cons _ (List.nil_subset _)

/-- An internal step brings the engine to an instant that was ahead, and none but those stay ahead. -/
theorem presentAndAhead_engineTick {s t : State} (hs : StartsAtZero s) (h : engineTick s = .next t) :
    presentAndAhead t ⊆ presentAndAhead s := by
  rcases engine_position s with hidle | ⟨ct, j, hline⟩ | ⟨c, hword⟩
  · rw [engineTick_idle hidle] at h
    cases h
    exact List.Subset.refl _
  · cases hj : (hashProgram ct)[j]? with
    | none =>
      rw [hline.engineTick_end hj] at h
      cases h
      exact presentAndAhead_subset_of_idle rfl rfl
    | some op =>
      rw [hline.engineTick_line hj] at h
      obtain ⟨hlt, hop⟩ := List.getElem?_eq_some_iff.mp hj
      have hdrop : (hashProgram ct).drop j = op :: (hashProgram ct).drop (j + 1) := by
        rw [List.drop_eq_getElem_cons hlt, hop]
      rcases microStep_cases op s with ⟨u, _, hm⟩ | ⟨c, a, _, hm⟩ | ⟨_, hm⟩ | ⟨_, hm⟩ <;>
        rw [hm] at h <;> cases h
      · rw [presentAndAhead, presentAndAhead, (hline.next hm).engineAhead, hline.engineAhead, hdrop,
          microAhead_done hm]
        exact List.subset_cons_self ..
      · exact presentAndAhead_subset_of_idle rfl rfl
      · exact List.Subset.refl _
  · cases hd : decode c with
    | error e =>
      rw [hword.engineTick_illegal hd] at h
      cases h
      exact presentAndAhead_subset_of_idle rfl rfl
    | ok i =>
      by_cases hi : i = .hash
      · subst hi
        rw [hword.engineTick_hash hd] at h
        obtain ⟨hct, j, hseq⟩ := id hword
        obtain rfl := hs c j hseq hct
        rcases hashLaunch_cases s with hl | hl | hl <;> rw [hl] at h <;> cases h
        · exact presentAndAhead_subset_of_idle rfl rfl
        · rw [presentAndAhead, presentAndAhead, (atLine_launched hseq).engineAhead, List.drop_zero,
            hword.engineAhead_launched hd hl]
          exact List.Subset.refl _
      · rw [hword.engineTick_other hd hi] at h
        rcases (exec_ended hi h).idle_or_waiting with ⟨hidle, _⟩ | rfl
        · rw [presentAndAhead_idle hidle, presentAndAhead, hword.engineAhead_other hd hi h]
          exact List.subset_cons_self ..
        · exact List.Subset.refl _

/-- What holds of the present and the instants ahead after a number of ticks. -/
theorem presentAndAhead_ticks {n : Nat} {s t : State} (hs : Inv s) (h : ticks n s = .next t) :
    Inv t ∧ presentAndAhead t ⊆ presentAndAhead s := by
  refine ticks_keeps (P := fun u => Inv u ∧ presentAndAhead u ⊆ presentAndAhead s) ?_ h ⟨hs, List.Subset.refl _⟩
  rintro u v huv ⟨hinv, hsub⟩
  exact ⟨inv_engineTick huv hinv, List.Subset.trans (presentAndAhead_engineTick (inv_startsAtZero hinv) huv) hsub⟩

/-- With nothing but ticks to come, or nothing at all, a step is a number of internal steps. -/
theorem step_ticks {s s' : State} {k : Nat} {r : DWord} (hs : StartsAtZero s)
    (h : step (outside (List.replicate k .tick) r s) = .next s') :
    ∃ n t, ticks n s = .next t ∧ s' = outside (List.replicate (k - 1) .tick) r t := by
  have ofTicks : ∀ {n : Nat} {es : List Event}, mapNext (outside es r) (ticks n s) = .next s' →
      ∃ n t, ticks n s = .next t ∧ s' = outside es r t := by
    intro n es hmap
    cases ht : ticks n s with
    | next t => rw [ht] at hmap; cases hmap; exact ⟨n, t, ht, rfl⟩
    | fault e => cases e
    | refused e => rw [ht] at hmap; cases hmap
  cases k with
  | zero =>
    obtain ⟨n, hn⟩ := engineRun_eq_ticks (s := outside [] r s) hs
    rw [List.replicate_zero, step_run, hn, ticks_outside] at h
    exact ofTicks h
  | succ k =>
    rw [List.replicate_succ, step_tick] at h
    refine ofTicks (n := 1) ?_
    rw [ticks_one]
    exact h

theorem reaches_presentAndAhead {n k : Nat} {s t : State} {r : DWord} (hinv : Inv s)
    (h : Reaches (outside (List.replicate k .tick) r s) n t) : snapshot t ∈ presentAndAhead s := by
  induction n generalizing s k r with
  | zero =>
    obtain rfl := reaches_zero_iff.mp h
    exact List.mem_cons_self ..
  | succ n ih =>
    obtain ⟨_, s', hstep, hreach⟩ := reaches_succ_iff.mp h
    obtain ⟨m, u, hticks, rfl⟩ := step_ticks (inv_startsAtZero hinv) hstep
    obtain ⟨hinv', hsub⟩ := presentAndAhead_ticks hinv hticks
    exact hsub (ih hinv' hreach)

theorem reaches_ahead {n k : Nat} {es : List Event} {s t : State} {r : DWord} (hinv : Inv s)
    (h : Reaches (outside (es ++ List.replicate k .tick) r s) n t) (ht : CommandInstant t) :
    snapshot t ∈ snapshot s :: aheadOver es s := by
  induction es generalizing n s r with
  | nil => exact reaches_presentAndAhead hinv h
  | cons e es ih =>
    cases n with
    | zero =>
      obtain rfl := reaches_zero_iff.mp h
      exact List.mem_cons_self ..
    | succ n =>
      obtain ⟨_, s', hstep, hreach⟩ := reaches_succ_iff.mp h
      obtain ⟨r', hr'⟩ := step_event (es ++ List.replicate k .tick) r e s
      rw [List.cons_append, hr'] at hstep
      cases he : eventAhead e s with
      | next u =>
        rw [he] at hstep
        cases hstep
        refine List.mem_cons_of_mem _ ?_
        rw [aheadOver_next he]
        by_cases hu : busy u = true
        · rw [if_pos hu]
          exact ih (inv_event he hinv) hreach
        · cases n with
          | zero =>
            obtain rfl := reaches_zero_iff.mp hreach
            have hend : u.done || u.fault := (Bool.or_eq_true ..).mpr (ht.resolve_left hu)
            rw [if_neg hu, if_pos hend]
            exact List.mem_singleton_self _
          | succ n =>
            obtain ⟨hub, _⟩ := reaches_succ_iff.mp hreach
            exact absurd hub hu
      | fault e => cases e
      | refused e =>
        rw [he] at hstep
        cases hstep

/-- Settles O55: the draw is among the instants; the instants ahead are those come to and no others; a step loses none
and makes none up. -/
theorem busyReadsDrawAnInstant : Obligations.BusyReadsDrawAnInstant := by
  refine ⟨fun s rest d width hb hw hd hdw => ?_, fun s sn hinv hb hsn => ?_, fun s t k n hinv _ h => ?_,
    fun s t hs h ht => instantsKept_step hs h ht⟩
  · obtain ⟨hptr, hresult⟩ := busyReads rest hb hw hd hdw
    exact ⟨hptr, hresult, fun k h hk hh => busyReads_vreg rest hb hw hd hdw hk hh,
      fun o v hmem => busyReads_fixed rest hw hd hdw hmem⟩
  · obtain ⟨k, hk⟩ := aheadOver_comesTo hinv hb hsn
    obtain ⟨n, t, hreach, hinst, hval⟩ := hk s.readData
    exact ⟨k, n, t, (comesTo_iff s k n t).mpr ⟨hreach, hinst⟩, hval⟩
  · obtain ⟨hreach, hinst⟩ := (comesTo_iff s k n t).mp h
    exact List.mem_cons.mp (reaches_ahead hinv hreach hinst)

end Sys2Proof.Proofs
end

section
/-! SUPPORT. Commands and platform memory: no command writes it (R80), a race reads as the byte's value before or
after the write (R93), and a command is refused only where a byte it reads has read side effects (R87). -/

namespace Sys2Proof.Proofs

open Sys2Proof.Machine Sys2Proof.Safety

/-! ### Memory is only read -/

/-- Settles O42: memory and every field named lie in what the engine never writes. -/
theorem commandsNeverWriteMemory : Obligations.CommandsNeverWriteMemory := by
  intro i s t h
  have hframe : engineFrame t = engineFrame s := engineFrame_exec h
  simp only [engineFrame, State.mk.injEq, true_and] at hframe
  obtain ⟨hlen, htail, hieDone, hieFault, herr, hlast, hsalt1, hsalt2, hsalt3, hbase, hmem, hregions, _, hread,
    hagenda⟩ := hframe
  exact ⟨fun a => by rw [hmem], hmem, hlen, htail, hieDone, hieFault, hlast, herr, hsalt1, hsalt2, hsalt3, hbase,
    hregions, hagenda, hread⟩

/-! ### Races -/

/-- A byte no one has written since the command was accepted reads as memory holds it (R87). -/
theorem byteAt_of_not_raced {s : State} {b : Nat} (h : ∀ x, (b, x) ∉ s.raced) :
    byteAt s b = Memory.read s.mem b :=
  (byteAt_mem s b).resolve_right (h _)

/-- The first race: the byte written reads as its value before or after the write (R93). -/
theorem byteAt_writeMemory_same {s : State} {a : Nat} (x : Byte) (hm : MemoryCanonical s) (hr : s.raced = []) :
    byteAt (writeMemory s a x) a = Memory.read s.mem a ∨ byteAt (writeMemory s a x) a = x := by
  rcases byteAt_mem (writeMemory s a x) a with hnow | hbefore
  · exact .inr (hnow.trans (Memory.read_write_same hm))
  · rw [writeMemory_raced, hr] at hbefore
    split_ifs at hbefore
    · exact .inl (by simpa using hbefore)
    · exact absurd hbefore List.not_mem_nil

/-- While idle a byte written reads as written. -/
theorem byteAt_writeMemory_idle {s : State} {a : Nat} (x : Byte) (hm : MemoryCanonical s) (hr : s.raced = [])
    (hb : busy s = false) : byteAt (writeMemory s a x) a = x := by
  rw [byteAt_of_no_race (by simp [hb, hr]), writeMemory_mem, Memory.read_write_same hm]

/-- A write leaves what the other bytes read as. -/
theorem byteAt_writeMemory_other {s : State} {a b : Nat} (x : Byte) (hr : s.raced = []) (hab : b ≠ a) :
    byteAt (writeMemory s a x) b = Memory.read s.mem b := by
  have hraced : ∀ y, (b, y) ∉ (writeMemory s a x).raced := fun y hy => by
    rw [writeMemory_raced, hr] at hy
    split_ifs at hy
    · simp [hab] at hy
    · exact List.not_mem_nil hy
  rw [byteAt_of_not_raced hraced, writeMemory_mem, Memory.read_write_other hab]

/-- With a write of another agent next, that is what a step does. -/
theorem step_memWrite (s : State) (a : DWord) (x : Byte) :
    step { s with agenda := [.memWrite a x] } = .next (writeMemory { s with agenda := [] } a.toNat x) := rfl

/-- Settles O58: the step is the write, and nothing raced before it. -/
theorem racedByteIsOldOrNew : Obligations.RacedByteIsOldOrNew := by
  intro s a x hm hr
  exact ⟨_, step_memWrite s a x, byteAt_writeMemory_same x hm hr, byteAt_writeMemory_idle x hm hr,
    fun _ => byteAt_writeMemory_other x hr⟩

/-! ### What an access is refused for -/

theorem touches_empty (s : State) (k : RegionKind) (a : Nat) : touches s k a 0 = false :=
  (touches_false_iff s k a 0).mpr fun _ h => absurd h (Nat.not_lt_zero _)

theorem portAnswer_outside_iff (s : State) (a n : Nat) :
    portAnswer s a n = .outside ↔ touches s .sideEffect a n = true := by
  unfold portAnswer
  split_ifs <;> simp_all

/-- The stretch `[a, a+n)` lies inside the address space and covers a location with read side effects: what a model
refuses to read (R87, D30). -/
def OutsideModel (s : State) (a n : Nat) : Prop :=
  a + n ≤ Config.addressSpace ∧ touches s .sideEffect a n = true

theorem not_outsideModel_empty (s : State) (a : Nat) : ¬ OutsideModel s a 0 := fun ⟨_, h⟩ => by
  rw [touches_empty] at h
  cases h

theorem accessThen_eq_outside_iff (s : State) (a n : Nat) (fa : DWord) (u : State) :
    accessThen s a n fa u = .outside ↔ OutsideModel s a n := by
  rw [OutsideModel, ← portAnswer_outside_iff]
  rcases accessThen_cases s a n fa u with
    ⟨hl, he⟩ | ⟨hle, ⟨hp, he⟩ | ⟨hp, he⟩ | ⟨hp, he⟩ | ⟨hp, he⟩⟩
  · simp [he, not_le.mpr hl]
  all_goals simp [he, hp, hle]

/-- The end of a command is a next state, or the refusal of a footprint with read side effects. -/
theorem conclude_cases (r : OpResult) :
    ((∃ t, conclude r = .next t) ∨ conclude r = .refused .readSideEffect) ∧
      (conclude r = .refused .readSideEffect ↔ r = .outside) := by
  cases r <;> simp [conclude]

/-! ### The reads of HASH's microprogram -/

/-- How many bytes from PTR on a line reads (R86, R272). -/
def lineReads (overRead : Bool) : MicroOp → Nat
  | .linit => 128
  | .lstep => 128
  | .lredAcc => 0
  | .zeroAcc => 0
  | .loadTmp => 16
  | .compAcc => 0
  | .loadpTmp r => if overRead then 16 else r
  | .finAcc => 0

/-- How far a line that finishes moves PTR. -/
def lineAdvance : MicroOp → Nat
  | .linit => 128
  | .lstep => 128
  | .lredAcc => 0
  | .zeroAcc => 0
  | .loadTmp => 16
  | .compAcc => 0
  | .loadpTmp r => r
  | .finAcc => 0

/-- How far from PTR on the lines read. Where a line reads past where it leaves PTR, as an over-reading tail does, the
lines after it need not. -/
def linesReach (overRead : Bool) : List MicroOp → Nat
  | [] => 0
  | op :: rest => max (lineReads overRead op) (lineAdvance op + linesReach overRead rest)

theorem microEffect_eq_outside {op : MicroOp} {s : State} (h : microEffect op s = .outside) :
    OutsideModel s s.ptr.toNat (lineReads s.tailMode op) := by
  cases op with
  | linit | lstep | loadTmp | loadpTmp => exact (accessThen_eq_outside_iff ..).mp h
  | lredAcc | zeroAcc | compAcc | finAcc => cases h

theorem microEffect_done_ptr {op : MicroOp} {s t : State} (h : microEffect op s = .done t) :
    t.ptr = s.ptr + BitVec.ofNat 64 (lineAdvance op) := by
  cases op with
  | linit | lstep | loadTmp | loadpTmp => obtain ⟨rfl, _⟩ := accessThen_done h; rfl
  | lredAcc | zeroAcc | compAcc | finAcc => cases h; exact (BitVec.add_zero _).symm

theorem microEffect_done_regions {op : MicroOp} {s t : State} (h : microEffect op s = .done t) :
    t.regions = s.regions := by
  rw [microEffect_done h]
  rfl

theorem microEffect_done_tailMode {op : MicroOp} {s t : State} (h : microEffect op s = .done t) :
    t.tailMode = s.tailMode := by
  rw [microEffect_done h]
  rfl

/-- None of the `n` bytes from PTR on, counted modulo 2^64 as PTR is, has read side effects. -/
def QuietFor (s : State) (n : Nat) : Prop :=
  ∀ k < n, touches s .sideEffect (s.ptr + BitVec.ofNat 64 k).toNat 1 = false

/-- A byte below the top of the address space has the address PTR comes to there. -/
theorem toNat_ptr_add {p : DWord} {k : Nat} (h : p.toNat + k < Config.addressSpace) :
    (p + BitVec.ofNat 64 k).toNat = p.toNat + k := by
  rw [BitVec.toNat_add, BitVec.toNat_ofNat, Nat.add_mod_mod, Nat.mod_eq_of_lt h]

theorem quietFor_of_touches {s : State} {n : Nat} (hn : s.ptr.toNat + n ≤ Config.addressSpace)
    (h : touches s .sideEffect s.ptr.toNat n = false) : QuietFor s n := fun k hk => by
  rw [toNat_ptr_add (by omega)]
  exact (touches_false_iff ..).mp h k hk

theorem QuietFor.not_outsideModel {s : State} {n m : Nat} (h : QuietFor s n) (hm : m ≤ n) :
    ¬ OutsideModel s s.ptr.toNat m := fun ⟨hle, ht⟩ => by
  obtain ⟨k, hk, htk⟩ := (touches_iff ..).mp ht
  have hquiet := h k (by omega)
  rw [toNat_ptr_add (by omega), htk] at hquiet
  cases hquiet

/-- After a line that finishes, the bytes the lines after it reach are still quiet. -/
theorem QuietFor.after_line {op : MicroOp} {s t : State} {n : Nat} (h : QuietFor s (lineAdvance op + n))
    (ht : microEffect op s = .done t) : QuietFor (advance (snapshot s) t) n := fun k hk => by
  have hquiet := h (lineAdvance op + k) (by omega)
  rw [BitVec.ofNat_add, ← BitVec.add_assoc, ← microEffect_done_ptr ht] at hquiet
  simpa [touches, microEffect_done_regions ht] using hquiet

/-- Lines whose reach is quiet are never refused. -/
theorem runMicro_ne_outside {p : List MicroOp} {s : State} (h : QuietFor s (linesReach s.tailMode p)) :
    runMicro p s ≠ .outside := by
  induction p generalizing s with
  | nil => exact fun hr => nomatch hr
  | cons op p ih =>
    rw [linesReach] at h
    rcases microStep_cases op s with ⟨t, ht, hm⟩ | ⟨c, a, _, hm⟩ | ⟨_, hm⟩ | ⟨ho, _⟩
    · have hrest : QuietFor s (lineAdvance op + linesReach s.tailMode p) :=
        fun k hk => h k (lt_of_lt_of_le hk (le_max_right ..))
      simp only [runMicro, hm]
      exact ih (by simpa [microEffect_done_tailMode ht] using hrest.after_line ht)
    · simp [runMicro, hm]
    · simp [runMicro, hm]
    · exact absurd (microEffect_eq_outside ho) (h.not_outsideModel (le_max_left ..))

/-! ### The reach of HASH -/

section
variable (overRead : Bool) (q : List MicroOp)

theorem linesReach_replicate_lstep (n : Nat) :
    linesReach overRead (List.replicate n .lstep ++ q) = 128 * n + linesReach overRead q := by
  induction n with
  | zero => simp
  | succ n ih =>
    simp only [List.replicate_succ, List.cons_append, linesReach, lineReads, lineAdvance, ih]
    omega

theorem linesReach_lanePhase (len : Nat) :
    linesReach overRead (lanePhase (hashCounters len) ++ q) =
      16 * (hashCounters len).unroll + linesReach overRead q := by
  unfold lanePhase
  split_ifs with h
  · simp only [hashCounters] at h
    simp only [List.cons_append, List.append_assoc, linesReach, lineReads, lineAdvance,
      linesReach_replicate_lstep, List.nil_append, hashCounters]
    omega
  · simp only [hashCounters] at h
    simp only [List.cons_append, List.nil_append, linesReach, lineReads, lineAdvance, hashCounters]
    omega

theorem linesReach_serialPhase (n : Nat) :
    linesReach overRead (serialPhase n ++ q) = 16 * n + linesReach overRead q := by
  induction n with
  | zero => simp [serialPhase]
  | succ n ih =>
    simp only [serialPhase, List.cons_append, linesReach, lineReads, lineAdvance, ih]
    omega

end

theorem linesReach_tailPhase (overRead : Bool) {r : Nat} (h : r < 16) :
    linesReach overRead (tailPhase r ++ [.finAcc]) = if overRead ∧ 0 < r then 16 else r := by
  rcases Nat.eq_zero_or_pos r with rfl | hr
  · simp [tailPhase, linesReach, lineReads, lineAdvance]
  · rw [tailPhase, if_pos hr]
    simp only [List.cons_append, List.nil_append, linesReach, lineReads, lineAdvance, hr, and_true]
    split_ifs <;> omega

theorem footprint_hash (s : State) :
    footprint .hash s =
      if s.tailMode ∧ s.len.toNat % 16 ≠ 0 then s.len.toNat - s.len.toNat % 16 + 16 else s.len.toNat := rfl

/-- The range and side-effect checks of the launch are on the footprint of R86 (R271). -/
theorem hashReads_eq_footprint (s : State) : hashReads s = footprint .hash s := by
  have hreads : hashReads s =
      if s.tailMode && decide (0 < s.len.toNat % 16) then 16 * (s.len.toNat / 16) + 16 else s.len.toNat := rfl
  rw [hreads, footprint_hash]
  simp only [Bool.and_eq_true, decide_eq_true_eq, Nat.pos_iff_ne_zero]
  split_ifs <;> omega

/-- The microprogram reads the footprint of R271 and no further. -/
theorem linesReach_hashProgram (s : State) :
    linesReach s.tailMode (hashProgram (hashCounters s.len.toNat)) = footprint .hash s := by
  have hr : (hashCounters s.len.toNat).r < 16 := Nat.mod_lt _ (by decide)
  rw [hashProgram, List.append_assoc, List.append_assoc, linesReach_lanePhase, linesReach_serialPhase,
    linesReach_tailPhase _ hr]
  rw [footprint_hash]
  simp only [hashCounters, Nat.pos_iff_ne_zero]
  split_ifs <;> omega

/-- HASH is refused at its launch or not at all. -/
theorem hashEffect_eq_outside_iff (s : State) :
    hashEffect s = .outside ↔ OutsideModel s s.ptr.toNat (footprint .hash s) := by
  unfold hashEffect hashLaunch OutsideModel
  rw [hashReads_eq_footprint]
  split_ifs with hwrap hside
  · simp [not_le.mpr hwrap]
  · simp [not_lt.mp hwrap, hside]
  · have hquiet : QuietFor s (footprint .hash s) := quietFor_of_touches (not_lt.mp hwrap) (by simpa using hside)
    rw [← linesReach_hashProgram] at hquiet
    exact iff_of_false (runMicro_ne_outside hquiet) fun h => hside h.2

/-! ### What a command is refused for -/

/-- A command ends as its effect does, and the effect is refused exactly where the command's footprint is outside the
model. -/
theorem exec_eq_conclude (i : Instr) (s : State) (h : i.wellFormed = true) :
    ∃ r, exec i s = conclude r ∧ (r = .outside ↔ OutsideModel s s.ptr.toNat (footprint i s)) := by
  have reads_nothing (u : State) : OpResult.done u = .outside ↔ OutsideModel s s.ptr.toNat 0 :=
    iff_of_false nofun (not_outsideModel_empty _ _)
  cases i with
  | nop | zero | comp | aesr | aesrl | lred | fin | extr => exact ⟨_, rfl, reads_nothing _⟩
  | load | linit | lstep => exact ⟨_, rfl, accessThen_eq_outside_iff ..⟩
  | loadp rd n =>
    have hn : n ≠ 0#4 := by simpa [Instr.wellFormed] using h
    exact ⟨_, if_neg hn, accessThen_eq_outside_iff ..⟩
  | hash => exact ⟨_, rfl, hashEffect_eq_outside_iff s⟩

/-- Settles O41: a command's end is refused only where its effect is. -/
theorem onlySideEffectFootprintsAreRefused : Obligations.OnlySideEffectFootprintsAreRefused := by
  intro i s hwf
  obtain ⟨r, hexec, hr⟩ := exec_eq_conclude i s hwf
  obtain ⟨hends, hrefused⟩ := conclude_cases r
  rw [hexec]
  refine ⟨hends, hrefused.trans (hr.trans ?_)⟩
  rw [OutsideModel, touches_iff]

end Sys2Proof.Proofs
end

section
/-! SUPPORT. The encoding (R120 to R132): a word is its fields, a word decodes to a command exactly when it is the
command's encoding, a row's mask and match are the opcode and the unused fields, and what the assembler emits. -/

namespace Sys2Proof.Proofs

open Sys2Proof.Machine Sys2Proof.Safety

/-! ### A word is its fields (R121) -/

/-- Each field is found past the fields below it. -/
@[simp] theorem fieldsOf_wordOf (f : Fields) : fieldsOf (wordOf f) = f := by
  unfold fieldsOf wordOf
  congr 1
  · exact BitVec.extractLsb'_append_eq_right
  · refine (BitVec.extractLsb'_append_eq_of_le (by decide)).trans ?_
    exact BitVec.extractLsb'_append_eq_right
  · iterate 2 refine (BitVec.extractLsb'_append_eq_of_le (by decide)).trans ?_
    exact BitVec.extractLsb'_append_eq_right
  · iterate 3 refine (BitVec.extractLsb'_append_eq_of_le (by decide)).trans ?_
    exact BitVec.extractLsb'_append_eq_right
  · iterate 4 refine (BitVec.extractLsb'_append_eq_of_le (by decide)).trans ?_
    exact BitVec.extractLsb'_append_eq_right
  · iterate 5 refine (BitVec.extractLsb'_append_eq_of_le (by decide)).trans ?_
    exact BitVec.extractLsb'_eq_self

theorem fieldsOf_injective : Function.Injective fieldsOf :=
  Function.LeftInverse.injective wordOf_fieldsOf

/-! ### The operand map and the opcode map, read both ways (R31, R124) -/

theorem opcodeOf_eq_some_iff {op : BitVec 8} {o : Opcode} : opcodeOf op = some o ↔ op = opcodeNumber o := by
  have number_of_some : ∀ op, ∀ o ∈ opcodeOf op, op = opcodeNumber o := by decide
  refine ⟨number_of_some op o, ?_⟩
  rintro rfl
  cases o <;> rfl

theorem destOf_eq_some_iff {k : BitVec 4} {r : VReg} : destOf k = some r ↔ k = regIndex r := by
  have index_of_some : ∀ k, ∀ r ∈ destOf k, k = regIndex r := by decide
  refine ⟨index_of_some k r, ?_⟩
  rintro rfl
  exact destOf_regIndex r

@[simp] theorem srcOf_srcIndex (a : Src) : srcOf (srcIndex a) = some a := by
  cases a with
  | reg r => exact srcOf_regIndex r
  | zr | salt1 | salt2 | salt3 => rfl

theorem srcOf_eq_some_iff {k : BitVec 4} {a : Src} : srcOf k = some a ↔ k = srcIndex a := by
  have index_of_some : ∀ k, ∀ a ∈ srcOf k, k = srcIndex a := by decide
  refine ⟨index_of_some k a, ?_⟩
  rintro rfl
  exact srcOf_srcIndex a

theorem exists_regIndex_iff (k : BitVec 4) : (∃ r, k = regIndex r) ↔ k.toNat ≤ 9 := by
  have legal_iff : ∀ k, (destOf k).isSome ↔ k.toNat ≤ 9 := by decide
  simp only [← legal_iff, Option.isSome_iff_exists, destOf_eq_some_iff]

theorem exists_srcIndex_iff (k : BitVec 4) : (∃ a, k = srcIndex a) ↔ k.toNat ≠ 10 ∧ k.toNat ≠ 11 := by
  have legal_iff : ∀ k, (srcOf k).isSome ↔ k.toNat ≠ 10 ∧ k.toNat ≠ 11 := by decide
  simp only [← legal_iff, Option.isSome_iff_exists, srcOf_eq_some_iff]

/-! ### The checks of R126 -/

theorem unusedFieldsZero_iff (o : Opcode) (f : Fields) : unusedFieldsZero o f = true ↔ UnusedZero o f := by
  simp only [unusedFieldsZero, Bool.and_eq_true, Bool.or_eq_true, beq_iff_eq, and_assoc, UnusedZero,
    ← Bool.not_eq_true, or_iff_not_imp_left]

/-- The operands of a row are let through exactly when the checks 3 and 4 pass. -/
theorem exists_operandsOf_iff (o : Opcode) (f : Fields) :
    (∃ i, operandsOf o f = some i ∧ i.wellFormed = true) ↔ OperandsLegal o f := by
  simp only [OperandsLegal, ← exists_regIndex_iff, ← exists_srcIndex_iff]
  cases o with
  | nop | linit | lstep | hash => simp [operandsOf, usedFields, Instr.wellFormed]
  | zero | load | loadp | lred =>
    simp [operandsOf, usedFields, Instr.wellFormed, destOf_eq_some_iff]
  | comp | aesr | aesrl =>
    simp [operandsOf, usedFields, Instr.wellFormed, Option.bind_eq_some_iff, destOf_eq_some_iff, srcOf_eq_some_iff]
  | fin | extr => simp [operandsOf, usedFields, Instr.wellFormed, srcOf_eq_some_iff]

/-- What decoding accepts: the four checks of R126. -/
theorem decode_eq_ok_iff_checks {c : CmdWord} {i : Instr} :
    decode c = .ok i ↔
      (fieldsOf c).op = opcodeNumber (opcode i) ∧ UnusedZero (opcode i) (fieldsOf c) ∧
        operandsOf (opcode i) (fieldsOf c) = some i ∧ i.wellFormed = true := by
  rw [← opcodeOf_eq_some_iff, ← unusedFieldsZero_iff]
  constructor
  · intro h
    unfold decode at h
    split at h
    · cases h
    · rename_i o ho
      split_ifs at h with hz
      split at h
      · cases h
      · rename_i k hk
        split_ifs at h with hwf
        cases h
        obtain rfl := opcode_of_operandsOf hk
        exact ⟨ho, hz, hk, hwf⟩
  · rintro ⟨hop, hz, hi, hwf⟩
    simp [decode, hop, hz, hi, hwf]

/-- The fields that pass the checks for a command are those of its word. -/
theorem checks_iff_fields (f : Fields) (i : Instr) :
    f.op = opcodeNumber (opcode i) ∧ UnusedZero (opcode i) f ∧ operandsOf (opcode i) f = some i ↔
      f = fieldsOf (encode i) := by
  obtain ⟨op, rd, rs1, rs2, n, rsv⟩ := f
  cases i with
  | nop | linit | lstep | hash =>
    simp [opcode, operandsOf, usedFields, encode, wordWith, UnusedZero, and_comm, and_assoc]
  | zero | load | loadp | lred =>
    simp [opcode, operandsOf, usedFields, encode, wordWith, UnusedZero, destOf_eq_some_iff, and_comm, and_left_comm,
      and_assoc]
  | comp | aesr | aesrl =>
    simp [opcode, operandsOf, usedFields, encode, wordWith, UnusedZero, Option.bind_eq_some_iff, destOf_eq_some_iff,
      srcOf_eq_some_iff, and_comm, and_left_comm, and_assoc]
  | fin | extr =>
    simp [opcode, operandsOf, usedFields, encode, wordWith, UnusedZero, srcOf_eq_some_iff, and_comm, and_left_comm,
      and_assoc]

/-- A word decodes to a command exactly when it is the word of the command, the command being well-formed. -/
theorem decode_eq_ok_iff {c : CmdWord} {i : Instr} :
    decode c = .ok i ↔ c = encode i ∧ i.wellFormed = true := by
  rw [decode_eq_ok_iff_checks, ← fieldsOf_injective.eq_iff, ← checks_iff_fields]
  tauto

/-- Settles O1: the word of a well-formed command is the one that decodes to it. -/
theorem decodeEncodeRoundTrip : Obligations.DecodeEncodeRoundTrip :=
  fun _ hwf => decode_eq_ok_iff.mpr ⟨rfl, hwf⟩

/-- Settles O2: no other word decodes to the command. -/
theorem decodedWordIsItsEncoding : Obligations.DecodedWordIsItsEncoding := by
  intro c i h
  obtain ⟨hc, hwf⟩ := decode_eq_ok_iff.mp h
  exact ⟨hc.symm, hwf⟩

/-! ### The rows of the match and mask table (R125) -/

/-- Two words' fields ANDed field by field. -/
def andFields (f g : Fields) : Fields where
  op := f.op &&& g.op
  rd := f.rd &&& g.rd
  rs1 := f.rs1 &&& g.rs1
  rs2 := f.rs2 &&& g.rs2
  n := f.n &&& g.n
  rsv := f.rsv &&& g.rsv

theorem fieldsOf_and (c m : CmdWord) : fieldsOf (c &&& m) = andFields (fieldsOf c) (fieldsOf m) := by
  simp only [fieldsOf, andFields, BitVec.extractLsb'_and]

/-- The bits a row compares in an operand field: none where the opcode uses the field, else all. -/
def fieldMask (used : Bool) : BitVec 4 := if used then 0 else 15

theorem and_fieldMask_eq_zero_iff (x : BitVec 4) (used : Bool) :
    x &&& fieldMask used = 0 ↔ (used = false → x = 0) := by
  cases used with
  | true => simp [fieldMask]
  | false =>
    have all_ones : x &&& fieldMask false = x := BitVec.and_allOnes
    simp [all_ones]

theorem fieldsOf_rowMask (o : Opcode) :
    fieldsOf (rowMask o) = ⟨0xFF#8, fieldMask (usedFields o).1, fieldMask (usedFields o).2.1,
      fieldMask (usedFields o).2.2.1, fieldMask (usedFields o).2.2.2, 0xFF#8⟩ := by
  cases o <;> rfl

theorem fieldsOf_rowMatch (o : Opcode) : fieldsOf (rowMatch o) = ⟨opcodeNumber o, 0, 0, 0, 0, 0⟩ := by
  cases o <;> rfl

/-- A word matches a row exactly when it has the row's opcode and passes check 2 of R126. -/
theorem row_matches_iff (c : CmdWord) (o : Opcode) :
    c &&& rowMask o = rowMatch o ↔ (fieldsOf c).op = opcodeNumber o ∧ UnusedZero o (fieldsOf c) := by
  have all_ones (x : BitVec 8) : x &&& 0xFF#8 = x := BitVec.and_allOnes
  rw [← fieldsOf_injective.eq_iff, fieldsOf_and, fieldsOf_rowMask, fieldsOf_rowMatch]
  simp only [andFields, Fields.mk.injEq, all_ones, and_fieldMask_eq_zero_iff]
  tauto

/-- Settles O3: a match is the row's opcode with check 2, and the operand checks are what yields a command. -/
theorem decodeMatchesRowTable : Obligations.DecodeMatchesRowTable := by
  intro c o
  rw [row_matches_iff, ← exists_operandsOf_iff]
  constructor
  · rintro ⟨i, hd, rfl⟩
    obtain ⟨hop, hz, hi, hwf⟩ := decode_eq_ok_iff_checks.mp hd
    exact ⟨⟨hop, hz⟩, i, hi, hwf⟩
  · rintro ⟨⟨hop, hz⟩, i, hi, hwf⟩
    obtain rfl := opcode_of_operandsOf hi
    exact ⟨i, decode_eq_ok_iff_checks.mpr ⟨hop, hz, hi, hwf⟩, rfl⟩

/-- Settles O4: each word is the encoding of its command. -/
theorem workedEncodingsDecode : Obligations.WorkedEncodingsDecode := by
  unfold Obligations.WorkedEncodingsDecode
  simp only [decode_eq_ok_iff]
  decide

/-! ### The assembler (R129 to R131) -/

theorem countOfName_ne_zero {cs : List Char} {k : BitVec 4} (h : countOfName cs = some k) : k ≠ 0#4 := by
  unfold countOfName at h
  split at h
  · split at h
    · split_ifs at h with hrange
      cases h
      bv_omega
    · cases h
  · cases h

theorem wellFormed_expandPseudo (p : Pseudo) : ∀ i ∈ expandPseudo p, i.wellFormed = true := by
  cases p <;> simp [expandPseudo, Instr.wellFormed]

/-- A mnemonic with its operands gives one well-formed command or the commands of a pseudo-instruction. -/
theorem assembleForm_emits {m : List Char} {ops : List (List Char)} {is : List Instr}
    (h : assembleForm m ops = some is) : (∃ i, is = [i] ∧ i.wellFormed = true) ∨ ∃ p, is = expandPseudo p := by
  unfold assembleForm at h
  split at h
  -- The cases are the lines of `assembleForm` in order: here the commands without operands.
  case h_1 | h_2 | h_3 | h_4 =>
    cases h
    exact .inl ⟨_, rfl, rfl⟩
  -- Commands of one operand.
  case h_5 | h_6 | h_7 | h_12 | h_13 =>
    obtain ⟨_, _, rfl⟩ := Option.map_eq_some_iff.mp h
    exact .inl ⟨_, rfl, rfl⟩
  -- LOADP, the one command whose operands could be ill-formed.
  case h_8 =>
    obtain ⟨_, _, h⟩ := Option.bind_eq_some_iff.mp h
    obtain ⟨k, hk, rfl⟩ := Option.map_eq_some_iff.mp h
    exact .inl ⟨_, rfl, bne_iff_ne.mpr (countOfName_ne_zero hk)⟩
  -- COMP, AESR and AESRL.
  case h_9 | h_10 | h_11 =>
    obtain ⟨_, _, h⟩ := Option.bind_eq_some_iff.mp h
    obtain ⟨_, _, h⟩ := Option.bind_eq_some_iff.mp h
    obtain ⟨_, _, rfl⟩ := Option.map_eq_some_iff.mp h
    exact .inl ⟨_, rfl, rfl⟩
  -- The pseudo-instructions: `fold` and `round`, then `finx`.
  case h_14 | h_15 =>
    obtain ⟨_, _, h⟩ := Option.bind_eq_some_iff.mp h
    obtain ⟨_, _, rfl⟩ := Option.map_eq_some_iff.mp h
    exact .inr ⟨_, rfl⟩
  case h_16 =>
    obtain ⟨_, _, rfl⟩ := Option.map_eq_some_iff.mp h
    exact .inr ⟨_, rfl⟩
  -- No such form.
  case h_17 => cases h

/-- Every command of an assembled line is well-formed (R129). -/
theorem wellFormed_of_assembleLine {line : List Char} {is : List Instr} (h : assembleLine line = some is) :
    ∀ i ∈ is, i.wellFormed = true := by
  simp only [assembleLine] at h
  split_ifs at h
  case pos => cases h; simp
  all_goals
    obtain ⟨i, rfl, hwf⟩ | ⟨p, rfl⟩ := assembleForm_emits h
    · simpa using hwf
    · exact wellFormed_expandPseudo p

/-- Settles O8: what is emitted is well-formed, so its word decodes. -/
theorem assemblerEmitsLegalCommands : Obligations.AssemblerEmitsLegalCommands :=
  fun _ _ h i hi => decodeEncodeRoundTrip i (wellFormed_of_assembleLine h i hi)

/-! ### The pseudo-instruction finx (R131) -/

theorem execAll_cons_next {i : Instr} {s t : State} (h : exec i s = .next t) (is : List Instr) :
    execAll (i :: is) s = execAll is t := by
  simp only [execAll, h]

theorem exec_aesr (rd : VReg) (a b : Src) (s : State) :
    exec (.aesr rd a b) s = .next (complete (writeReg s rd (encryptRound (srcValue s a) (srcValue s b)))) := rfl

theorem exec_aesrl (rd : VReg) (a b : Src) (s : State) :
    exec (.aesrl rd a b) s = .next (complete (writeReg s rd (encryptRoundLast (srcValue s a) (srcValue s b)))) := rfl

theorem exec_extr (a : Src) (s : State) :
    exec (.extr a) s = .next (complete { s with result := low64 (srcValue s a) }) := rfl

theorem exec_fin (a : Src) (s : State) :
    exec (.fin a) s = .next (complete { s with
      finH := some (finalizerRounds s.salt1 s.salt2 s.salt3 (srcValue s a))
      result := low64 (finalizerRounds s.salt1 s.salt2 s.salt3 (srcValue s a)) }) := rfl

/-- Each command reads in TMP what the one before left there, so TMP goes through the finalizer's three salted
rounds, and its low half is the RESULT. -/
theorem execAll_finx (a : Src) (s : State) :
    execAll (expandPseudo (.finx a)) s = .next (complete { s with
      v := setReg s.v .tmp (finalizerRounds s.salt1 s.salt2 s.salt3 (srcValue s a))
      result := low64 (finalizerRounds s.salt1 s.salt2 s.salt3 (srcValue s a)) }) := by
  rw [expandPseudo, execAll_cons_next (exec_aesr ..), execAll_cons_next (exec_aesr ..),
    execAll_cons_next (exec_aesrl ..), execAll_cons_next (exec_extr ..)]
  rfl

/-- Settles O25: both ends are the completed state with the same RESULT; completion clears the finalizer's hidden
vector, so TMP is all that is left between them. -/
theorem finxLeavesTheResultOfFin : Obligations.FinxLeavesTheResultOfFin :=
  fun a s => ⟨_, _, execAll_finx a s, exec_fin a s, rfl⟩

end Sys2Proof.Proofs
end

section
/-! SUPPORT. The vector state commands (R160 to R168): where a command is Ready its access finishes, so LOAD and LOADP
end completed, with one vector register written and PTR moved. -/

namespace Sys2Proof.Proofs

open Sys2Proof.Machine Sys2Proof.Safety

/-! ### An access that finishes -/

/-- Bytes that are all admitted and answered are answered together (R86, R367). -/
theorem portAnswer_of_readable {s : State} {a n : Nat} (hread : Readable s a n) (hanswer : Answering s a n) :
    portAnswer s a n = .answered := by
  simp only [portAnswer_answered_iff, touches_false_iff s _ a n]
  exact ⟨fun i hi => (hanswer i hi).2, fun i hi => (hanswer i hi).1, fun i hi => by simpa [memAdmit] using hread i hi⟩

/-- A command that is Ready cannot fault on the access of its footprint (R99). -/
theorem accessThen_of_ready {i : Instr} {s : State} (h : Ready i s) (fa : DWord) (u : State) :
    accessThen s s.ptr.toNat (footprint i s) fa u = .done u := by
  obtain ⟨htop, hread, hanswer⟩ := h
  rw [accessThen, if_neg (not_lt.mpr htop), portAnswer_of_readable hread hanswer]

/-- The bounded load reads no more than the over-read load, so it is Ready where that one is (R167). -/
theorem ready_loadp_bounded {rd : VReg} {n : BitVec 4} {s : State}
    (h : Ready (.loadp rd n) { s with tailMode := true }) : Ready (.loadp rd n) { s with tailMode := false } := by
  obtain ⟨htop, hread, hanswer⟩ := h
  have hfewer : footprint (.loadp rd n) { s with tailMode := false } ≤
      footprint (.loadp rd n) { s with tailMode := true } := n.isLt.le
  exact ⟨(Nat.add_le_add_left hfewer _).trans htop, fun i hi => hread i (hi.trans_le hfewer),
    fun i hi => hanswer i (hi.trans_le hfewer)⟩

/-! ### The commands, once each -/

theorem exec_zero (rd : VReg) (s : State) : exec (.zero rd) s = .next (complete (writeReg s rd 0)) := rfl

theorem exec_load_of_ready {rd : VReg} {s : State} (h : Ready (.load rd) s) :
    exec (.load rd) s =
      .next (complete { writeReg s rd (blockAt s s.ptr.toNat) with ptr := s.ptr + 16 }) :=
  congrArg conclude (accessThen_of_ready h ..)

theorem exec_loadp_zero (rd : VReg) (s : State) :
    exec (.loadp rd 0#4) s = .next (raiseFault s .illegalOperand 0) := rfl

theorem exec_loadp_of_ready {rd : VReg} {n : BitVec 4} {s : State} (hn : n ≠ 0#4) (h : Ready (.loadp rd n) s) :
    exec (.loadp rd n) s =
      .next (complete
        { writeReg s rd (partialAt s s.ptr.toNat n.toNat) with ptr := s.ptr + BitVec.ofNat 64 n.toNat }) :=
  (if_neg hn).trans (congrArg conclude (accessThen_of_ready h ..))

/-! ### What is loaded -/

theorem laneByte_blockAt (s : State) (a : Nat) {j : Nat} (hj : j < 16) :
    laneByte (blockAt s a) j = byteAt s (a + j) :=
  laneByte_vecOfBytes _ hj

theorem laneByte_partialAt (s : State) (a n : Nat) {j : Nat} (hj : j < 16) :
    laneByte (partialAt s a n) j = if j < n then byteAt s (a + j) else 0 :=
  laneByte_vecOfBytes _ hj

theorem regWritten_setReg (v : VRegs) (rd : VReg) (x : Vec) : RegWritten v (setReg v rd x) rd x :=
  ⟨getReg_setReg_same v rd x, fun _ hr => getReg_setReg_other v x hr⟩

/-- PTR moves modulo 2^64 (R164). -/
theorem toNat_add_ofNat (p : DWord) (n : Nat) : (p + BitVec.ofNat 64 n).toNat = (p.toNat + n) % 2 ^ 64 := by
  rw [BitVec.toNat_add, BitVec.toNat_ofNat, Nat.add_mod_mod]

/-! ### The statements -/

/-- Settles O12: the completed state has the block at PTR in the destination. -/
theorem loadReadsOneBlock : Obligations.LoadReadsOneBlock := by
  intro rd s hready
  obtain ⟨hloaded, hothers⟩ := regWritten_setReg s.v rd (blockAt s s.ptr.toNat)
  refine ⟨_, exec_load_of_ready hready, fun j hj => ?_, hothers, toNat_add_ofNat s.ptr 16, rfl⟩
  exact (congrArg (laneByte · j) hloaded).trans (laneByte_blockAt s _ hj)

/-- Settles O13: count 0 faults before the access; any other count completes with the partial block in the
destination. -/
theorem loadpReadsPartialBlock : Obligations.LoadpReadsPartialBlock := by
  intro rd n s
  refine ⟨fun hzero => hzero ▸ exec_loadp_zero rd s, fun hn hready => ?_⟩
  obtain ⟨hloaded, hothers⟩ := regWritten_setReg s.v rd (partialAt s s.ptr.toNat n.toNat)
  refine ⟨_, exec_loadp_of_ready hn hready, fun j hj => ?_, hothers, toNat_add_ofNat s.ptr n.toNat, rfl⟩
  exact (congrArg (laneByte · j) hloaded).trans (laneByte_partialAt s _ _ hj)

/-- Settles O14: both loads finish, and the partial block does not depend on the tail mode. -/
theorem tailModesLoadTheSameVector : Obligations.TailModesLoadTheSameVector := by
  intro rd n s hn hready
  exact ⟨_, exec_loadp_of_ready hn hready, rfl, exec_loadp_of_ready hn (ready_loadp_bounded hready)⟩

/-- Settles O10: completion is the whole meaning of NOP. -/
theorem nopOnlyCompletes : Obligations.NopOnlyCompletes := fun _ => rfl

/-- Settles O11: the completed state has its destination cleared. -/
theorem zeroClearsItsRegister : Obligations.ZeroClearsItsRegister :=
  fun rd s => ⟨_, exec_zero rd s, regWritten_setReg s.v rd 0, rfl⟩

end Sys2Proof.Proofs
end

section
/-! SUPPORT. The AES primitive (R190 to R205): each step of the round can be undone, so the round is a bijection; and
COMP, AESR and AESRL all write the round of their first operand XORed with their second. -/

namespace Sys2Proof.Proofs

open Sys2Proof.Machine Sys2Proof.Safety

/-! ### The AES state of a vector (R191) -/

theorem stateElem_vecOfState (f : Nat → Nat → Byte) {r c : Nat} (hr : r < 4) (hc : c < 4) :
    stateElem (vecOfState f) r c = f r c := by
  rw [stateElem, vecOfState, laneByte_vecOfBytes _ (by omega), show (r + 4 * c) % 4 = r by omega,
    show (r + 4 * c) / 4 = c by omega]

theorem stateElem_div_mod (v : Vec) (i : Nat) : stateElem v (i % 4) (i / 4) = laneByte v i := by
  rw [stateElem, Nat.mod_add_div]

theorem vec_ext_state {v w : Vec} (h : ∀ r < 4, ∀ c < 4, stateElem v r c = stateElem w r c) : v = w :=
  vec_ext v w fun i hi => by
    rw [← stateElem_div_mod v, ← stateElem_div_mod w, h _ (by omega) _ (by omega)]

/-! ### SubBytes (R192) -/

/-- Where `y` stands in the S-box table. -/
def sboxInv (y : Byte) : Byte := BitVec.ofNat 8 (sboxRows.flatten.idxOf y)

theorem sboxInv_sbox : ∀ x, sboxInv (sbox x) = x := by decide +kernel

theorem laneByte_subBytes (v : Vec) {i : Nat} (hi : i < 16) : laneByte (subBytes v) i = sbox (laneByte v i) :=
  laneByte_vecOfBytes _ hi

theorem stateElem_subBytes (v : Vec) {r c : Nat} (hr : r < 4) (hc : c < 4) :
    stateElem (subBytes v) r c = sbox (stateElem v r c) :=
  laneByte_subBytes v (by omega)

theorem subBytes_injective : Function.Injective subBytes := by
  intro v w h
  refine vec_ext v w fun i hi => Function.LeftInverse.injective sboxInv_sbox ?_
  rw [← laneByte_subBytes v hi, ← laneByte_subBytes w hi, h]

/-! ### ShiftRows (R193) -/

theorem stateElem_shiftRows (v : Vec) {r c : Nat} (hr : r < 4) (hc : c < 4) :
    stateElem (shiftRows v) r c = stateElem v r ((c + r) % 4) :=
  stateElem_vecOfState _ hr hc

theorem laneByte_shiftRows (v : Vec) {i : Nat} (hi : i < 16) :
    laneByte (shiftRows v) i = laneByte v (i % 4 + 4 * ((i / 4 + i % 4) % 4)) := by
  rw [← stateElem_div_mod, stateElem_shiftRows v (by omega) (by omega), stateElem]

/-- Four times a row's rotation turns the row all the way round. -/
theorem shiftRows_four_times (v : Vec) : shiftRows^[4] v = v := by
  refine vec_ext_state fun r hr c hc => ?_
  have once (w : Vec) (d : Nat) : stateElem (shiftRows w) r (d % 4) = stateElem w r ((d + r) % 4) := by
    rw [stateElem_shiftRows w hr (Nat.mod_lt d (by decide)), Nat.mod_add_mod]
  calc stateElem (shiftRows^[4] v) r c
      = stateElem (shiftRows^[4] v) r (c % 4) := by rw [Nat.mod_eq_of_lt hc]
    _ = stateElem v r ((c + r + r + r + r) % 4) := by simp only [Function.iterate_succ_apply', once]; rfl
    _ = stateElem v r c := by rw [show (c + r + r + r + r) % 4 = c by omega]

theorem shiftRows_injective : Function.Injective shiftRows :=
  Function.LeftInverse.injective (g := shiftRows^[3]) shiftRows_four_times

/-! ### MixColumns (R194) -/

/-- Doubling is linear: the shift is, and the reduction depends on one bit. -/
theorem gfDouble_xor (x y : Byte) : gfDouble (x ^^^ y) = gfDouble x ^^^ gfDouble y := by
  have reduction : ∀ p q : Bool, (if p ^^ q then 0x1B#8 else 0#8) =
      (if p then 0x1B#8 else 0#8) ^^^ (if q then 0x1B#8 else 0#8) := by decide
  rw [gfDouble, BitVec.shiftLeft_xor_distrib, BitVec.getLsbD_xor, reduction, gfDouble, gfDouble]
  ac_rfl

/-- `2•x ⊕ 3•x ⊕ x ⊕ x = x` in every row (R195). -/
theorem mixColumn_same (x : Byte) (r : Nat) : mixColumn x x x x r = x := by
  unfold mixColumn gfTriple
  split <;>
  · ac_nf
    simp only [BitVec.xor_self, BitVec.xor_zero]

theorem stateElem_mixColumns (v : Vec) {r c : Nat} (hr : r < 4) (hc : c < 4) :
    stateElem (mixColumns v) r c =
      mixColumn (stateElem v 0 c) (stateElem v 1 c) (stateElem v 2 c) (stateElem v 3 c) r :=
  stateElem_vecOfState _ hr hc

/-- The square of the matrix of R194: 5 on the diagonal, 4 two rows on, 0 elsewhere. -/
theorem stateElem_mixColumns_twice (v : Vec) {r c : Nat} (hr : r < 4) (hc : c < 4) :
    stateElem (mixColumns (mixColumns v)) r c =
      gfDouble (gfDouble (stateElem v r c ^^^ stateElem v ((r + 2) % 4) c)) ^^^ stateElem v r c := by
  simp only [stateElem_mixColumns, hr, hc, Nat.reduceLT]
  interval_cases r <;>
  · simp only [mixColumn, gfTriple, gfDouble_xor, Nat.reduceAdd, Nat.reduceMod]
    ac_nf
    simp only [xor_cancel_left, BitVec.xor_self, BitVec.xor_zero]

/-- Applying the square twice, the multiples of 4 cancel: the matrix of R194 has the identity as fourth power. -/
theorem mixColumns_four_times (v : Vec) : mixColumns^[4] v = v := by
  refine vec_ext_state fun r hr c hc => ?_
  have twice (w : Vec) {q : Nat} (hq : q < 4) := stateElem_mixColumns_twice w hq hc
  have opposite : (r + 2) % 4 < 4 := Nat.mod_lt _ (by decide)
  change stateElem (mixColumns (mixColumns (mixColumns (mixColumns v)))) r c = stateElem v r c
  rw [twice _ hr, twice v hr, twice v opposite, show ((r + 2) % 4 + 2) % 4 = r by omega]
  simp only [gfDouble_xor]
  ac_nf
  simp only [xor_cancel_left]

theorem mixColumns_injective : Function.Injective mixColumns :=
  Function.LeftInverse.injective (g := mixColumns^[3]) mixColumns_four_times

/-! ### The round (R190, R195) -/

theorem aesR_injective : Function.Injective aesR :=
  mixColumns_injective.comp (shiftRows_injective.comp subBytes_injective)

theorem aesRound_bijective (k : Vec) : Function.Bijective fun a => aesRound a k :=
  Function.Injective.bijective_of_finite fun _ _ h => aesR_injective ((BitVec.xor_left_inj k).mp h)

theorem stateElem_zero (r c : Nat) : stateElem 0 r c = 0 := BitVec.extractLsb'_zero

theorem stateElem_aesR_zero {r c : Nat} (hr : r < 4) (hc : c < 4) : stateElem (aesR 0) r c = 0x63#8 := by
  have substituted {q : Nat} (hq : q < 4) : stateElem (shiftRows (subBytes 0)) q c = 0x63#8 := by
    rw [stateElem_shiftRows _ hq hc, stateElem_subBytes _ hq (Nat.mod_lt _ (by decide)), stateElem_zero]
    rfl
  rw [aesR, stateElem_mixColumns _ hr hc, substituted (by decide), substituted (by decide), substituted (by decide),
    substituted (by decide), mixColumn_same]

/-! ### The commands (R200, R202, R204) -/

theorem exec_comp (rd : VReg) (a b : Src) (s : State) :
    exec (.comp rd a b) s = .next (complete (writeReg s rd (compress (srcValue s a) (srcValue s b)))) := rfl

/-- `i` is COMP, AESR or AESRL with these operands. -/
def IsAesCommand (i : Instr) (rd : VReg) (a b : Src) : Prop :=
  i = .comp rd a b ∨ i = .aesr rd a b ∨ i = .aesrl rd a b

theorem IsAesCommand.exec_eq {i : Instr} {rd : VReg} {a b : Src} (h : IsAesCommand i rd a b) (s : State) :
    exec i s = .next (complete (writeReg s rd (aesR (srcValue s a) ^^^ srcValue s b))) := by
  rcases h with rfl | rfl | rfl
  · rw [exec_comp, compress_eq]
  · rw [exec_aesr, encryptRound_eq]
  · rw [exec_aesrl, encryptRoundLast_eq]

theorem IsAesCommand.wellFormed {i : Instr} {rd : VReg} {a b : Src} (h : IsAesCommand i rd a b) :
    i.wellFormed = true := by
  rcases h with rfl | rfl | rfl <;> rfl

theorem withFetchWord_eq_acceptCommand (s : State) (c : CmdWord) :
    s.withFetchWord 32 c.toNat = { acceptCommand s c with agenda := [] } := by
  rw [State.withFetchWord, Nat.mod_eq_of_lt c.isLt, BitVec.ofNat_toNat, BitVec.setWidth_eq]

theorem step_withFetchWord_encode {i : Instr} (hwf : i.wellFormed = true) (s : State) :
    step (s.withFetchWord 32 (encode i).toNat) = exec i { acceptCommand s (encode i) with agenda := [] } := by
  obtain ⟨run, -⟩ := stepRunsDecodedCommand
  rw [withFetchWord_eq_acceptCommand]
  exact run _ (encode i) i ⟨rfl, ⟨0, rfl⟩, rfl⟩ (decodeEncodeRoundTrip i hwf)

theorem srcValue_acceptCommand (s : State) (c : CmdWord) (a : Src) :
    srcValue { acceptCommand s c with agenda := [] } a = srcValue s a := by
  cases a <;> rfl

/-- Of the command word, the run leaves nothing but LASTCMD. -/
theorem IsAesCommand.step_eq {i : Instr} {rd : VReg} {a b : Src} (h : IsAesCommand i rd a b) (s : State) :
    step (s.withFetchWord 32 (encode i).toNat) = .next
      { complete (writeReg { acceptCommand s 0 with agenda := [] } rd (aesR (srcValue s a) ^^^ srcValue s b)) with
        lastCmd := encode i } := by
  rw [step_withFetchWord_encode h.wellFormed, h.exec_eq, srcValue_acceptCommand, srcValue_acceptCommand]
  rfl

/-! ### The statements -/

/-- Settles O16: the three steps are injective, so the round is, and on finitely many vectors that is enough; the round
of zero has SBOX[0] in every byte before MixColumns, which keeps a column of equal bytes. -/
theorem roundIsBijective : Obligations.RoundIsBijective := by
  refine ⟨aesR_injective.bijective_of_finite, aesRound_bijective, aesRound_bijective, fun i hi => ?_⟩
  rw [← stateElem_div_mod, stateElem_aesR_zero (by omega) (by omega)]

/-- Settles O17: the completed state has the destination written with the operands of the old state. -/
theorem aesCommandsWriteTheRound : Obligations.AesCommandsWriteTheRound :=
  fun _ rd _ _ s hi => ⟨_, IsAesCommand.exec_eq hi s, regWritten_setReg s.v rd _, rfl⟩

/-- Settles O15: the listed order is `r + 4((c + r) mod 4)` at `r = i mod 4`, `c = i / 4`. -/
theorem shiftRowsByteOrder : Obligations.ShiftRowsByteOrder := by
  have listed : ∀ i < 16, i % 4 + 4 * ((i / 4 + i % 4) % 4) =
      [0, 5, 10, 15, 4, 9, 14, 3, 8, 13, 2, 7, 12, 1, 6, 11].getD i 0 := by decide
  intro v i hi
  rw [laneByte_shiftRows v hi, listed i hi]

/-- Settles O18: the three runs end alike but for the command word. -/
theorem aesCommandsDifferOnlyInLastcmd : Obligations.AesCommandsDifferOnlyInLastcmd :=
  fun _ _ _ s => ⟨_, IsAesCommand.step_eq (.inl rfl) s, IsAesCommand.step_eq (.inr (.inl rfl)) s,
    IsAesCommand.step_eq (.inr (.inr rfl)) s⟩

end Sys2Proof.Proofs
end

section
/-! SUPPORT. The lane commands (R220 to R228): where LINIT and LSTEP are Ready their access finishes, so they end
completed, with the lanes written together and PTR moved by 128; LRED reads no memory and always completes. -/

namespace Sys2Proof.Proofs

open Sys2Proof.Machine Sys2Proof.Safety

/-! ### The commands, once each -/

theorem exec_linit_of_ready {s : State} (h : Ready .linit s) :
    exec .linit s = .next (complete
      { s with v := setLanes s.v fun i => blockAt s (s.ptr.toNat + 16 * i), ptr := s.ptr + 128 }) :=
  congrArg conclude (accessThen_of_ready h ..)

theorem exec_lstep_of_ready {s : State} (h : Ready .lstep s) :
    exec .lstep s = .next (complete
      { s with
        v := setLanes s.v fun i => compress (getReg s.v (laneReg i)) (blockAt s (s.ptr.toNat + 16 * i))
        ptr := s.ptr + 128 }) :=
  congrArg conclude (accessThen_of_ready h ..)

theorem exec_lred (rd : VReg) (s : State) :
    exec (.lred rd) s = .next (complete (writeReg s rd (laneTree fun i => getReg s.v (laneReg i)))) := rfl

/-! ### The tree (R226) -/

/-- The tree over the lanes of a register file, its nodes written as rounds of the lanes by name. -/
theorem laneTree_lanes (v : VRegs) :
    laneTree (fun i => getReg v (laneReg i)) =
      aesR (aesR (aesR v.v0 ^^^ v.v1) ^^^ (aesR v.v2 ^^^ v.v3)) ^^^
        (aesR (aesR v.v4 ^^^ v.v5) ^^^ (aesR v.v6 ^^^ v.v7)) := by
  simp only [laneTree, compress_eq, laneReg, getReg]

/-! ### The statements -/

/-- Settles O19: the completed state has block `i` in lane `i`; of the vector registers only the lanes are
written. -/
theorem linitLoadsTheLanes : Obligations.LinitLoadsTheLanes := by
  intro s hready
  refine ⟨_, exec_linit_of_ready hready, fun i hi j hj => ?_, setLanes_acc .., setLanes_tmp ..,
    toNat_add_ofNat s.ptr 128, rfl⟩
  exact (congrArg (laneByte · j) (getReg_setLanes_lane s.v _ hi)).trans (laneByte_blockAt s _ hj)

/-- Settles O20: the completed state has lane `i` compressed with block `i`, both as the old state has them. -/
theorem lstepFoldsTheLanes : Obligations.LstepFoldsTheLanes := by
  intro s hready
  refine ⟨_, exec_lstep_of_ready hready, fun i hi => ?_, setLanes_acc .., setLanes_tmp ..,
    toNat_add_ofNat s.ptr 128, rfl⟩
  exact (getReg_setLanes_lane s.v _ hi).trans (compress_eq ..)

/-- Settles O21: the value written is the tree of the lanes before the write, a lane as destination included. -/
theorem lredWritesTheTree : Obligations.LredWritesTheTree := by
  intro rd s
  have ran := exec_lred rd s
  rw [laneTree_lanes] at ran
  exact ⟨_, _, _, _, _, _, _, ran, rfl, rfl, rfl, rfl, rfl, rfl, regWritten_setReg s.v rd _, rfl⟩

end Sys2Proof.Proofs
end

section
/-! SUPPORT. The finalizer (R250 to R255): a salted round is a bijection, so the three in a row are; FIN and EXTR read no
memory and always complete, with RESULT the only register written. -/

namespace Sys2Proof.Proofs

open Sys2Proof.Machine Sys2Proof.Safety

/-! ### The three salted rounds (R250, R255) -/

theorem finalizerRounds_eq (s1 s2 s3 acc : Vec) :
    finalizerRounds s1 s2 s3 acc = aesR (aesR (aesR acc ^^^ s1) ^^^ s2) ^^^ s3 := by
  simp only [finalizerRounds, encryptRound_eq, encryptRoundLast_eq]

/-- The finalizer is three rounds keyed by the salts, in the salts' order. -/
theorem finalizerRounds_eq_comp (s1 s2 s3 : Vec) :
    finalizerRounds s1 s2 s3 = (aesRound · s3) ∘ (aesRound · s2) ∘ (aesRound · s1) := by
  funext acc
  simp only [finalizerRounds_eq, Function.comp_apply, aesRound]

/-! ### The low half (R83) -/

theorem low64_byte (v : Vec) {i : Nat} (hi : i < 8) : (low64 v).extractLsb' (8 * i) 8 = laneByte v i := by
  have byte := half64_byte v 0 hi
  rwa [Nat.mul_zero, Nat.zero_add] at byte

/-! ### FIN as its completed state shows it (R250, R36) -/

/-- Completion clears the finalizer's hidden vector, so RESULT is all that FIN leaves. -/
theorem exec_fin_result (a : Src) (s : State) :
    exec (.fin a) s = .next (complete { s with
      result := low64 (aesR (aesR (aesR (srcValue s a) ^^^ s.salt1) ^^^ s.salt2) ^^^ s.salt3) }) := by
  rw [exec_fin, finalizerRounds_eq]
  rfl

/-! ### The statements -/

/-- Settles O24: each salted round is a bijection of its input, and the finalizer composes three of them. -/
theorem finalizerIsBijective : Obligations.FinalizerIsBijective := by
  intro s1 s2 s3
  change Function.Bijective (finalizerRounds s1 s2 s3)
  rw [finalizerRounds_eq_comp]
  exact (aesRound_bijective s3).comp ((aesRound_bijective s2).comp (aesRound_bijective s1))

/-- Settles O23: RESULT is the source's low half, whose bytes are the source's lane bytes 0 to 7. -/
theorem extrTakesTheLowHalf : Obligations.ExtrTakesTheLowHalf :=
  fun a s => ⟨_, exec_extr a s, fun _ hj => low64_byte (srcValue s a) hj, rfl⟩

/-- Settles O22: the completed state differs from the old one by RESULT, the low half of the third round. -/
theorem finWritesTheResult : Obligations.FinWritesTheResult :=
  fun a s => ⟨_, _, _, _, exec_fin_result a s, rfl, rfl, rfl, rfl, rfl⟩

end Sys2Proof.Proofs
end

section
/-! SUPPORT. HASH's microprogram as accesses of platform memory (R272, R282, R283, R304): where every read is answered
the lines finish exactly when no byte of their reach is refused, and else end at the first line with a refused byte. -/

namespace Sys2Proof.Proofs

open Sys2Proof.Machine Sys2Proof.Safety

/-! ### The lines of HASH -/

theorem length_serialPhase (n : Nat) : (serialPhase n).length = 2 * n := by
  induction n with
  | zero => rfl
  | succ n ih =>
    simp only [serialPhase, List.length_cons, ih]
    omega

theorem length_lanePhase_le (len : Nat) : (lanePhase (hashCounters len)).length ≤ len / 16 / 8 + 1 := by
  unfold lanePhase
  split_ifs with h
  · simp only [hashCounters] at h
    simp only [List.length_cons, List.length_append, List.length_replicate, List.length_nil, hashCounters]
    omega
  · simp

theorem length_tailPhase_le (r : Nat) : (tailPhase r).length ≤ 2 := by
  unfold tailPhase
  split_ifs <;> simp

/-- Settles O34: a line for each group of 8 blocks and the reduction, two for each of at most 7 serial blocks, two for
the tail, one for the finalizer. -/
theorem hashStepBound : Obligations.HashStepBound := by
  intro len
  have hlanes := length_lanePhase_le len
  have htail := length_tailPhase_le (hashCounters len).r
  simp only [hashProgram, List.length_append, length_serialPhase, List.length_singleton]
  simp only [hashCounters] at *
  omega

/-- The lines of HASH before the finalizer. -/
def hashBody (ct : HashCounters) : List MicroOp :=
  lanePhase ct ++ serialPhase (ct.total - ct.k) ++ tailPhase ct.r

theorem hashProgram_eq_body (ct : HashCounters) : hashProgram ct = hashBody ct ++ [.finAcc] := rfl

theorem mem_serialPhase {op : MicroOp} {n : Nat} (h : op ∈ serialPhase n) : op = .loadTmp ∨ op = .compAcc := by
  induction n with
  | zero => cases h
  | succ n ih =>
    simp only [serialPhase, List.mem_cons] at h
    rcases h with h | h | h
    · exact .inl h
    · exact .inr h
    · exact ih h

theorem mem_lanePhase {op : MicroOp} {ct : HashCounters} (h : op ∈ lanePhase ct) :
    op = .linit ∨ op = .lstep ∨ op = .lredAcc ∨ op = .zeroAcc := by
  unfold lanePhase at h
  split_ifs at h
  · simp only [List.mem_cons, List.mem_append, List.mem_replicate, List.not_mem_nil, or_false] at h
    tauto
  · simp only [List.mem_singleton] at h
    exact .inr (.inr (.inr h))

theorem mem_tailPhase {op : MicroOp} {r : Nat} (h : op ∈ tailPhase r) : op = .loadpTmp r ∨ op = .compAcc := by
  unfold tailPhase at h
  split_ifs at h
  · simpa using h
  · cases h

/-- A line before the finalizer is not the finalizer, and reads as far as it moves PTR. -/
theorem of_mem_hashBody {op : MicroOp} {ct : HashCounters} (h : op ∈ hashBody ct) (hr : ct.r < 16) (overRead : Bool) :
    op ≠ .finAcc ∧ lineAdvance op ≤ lineReads overRead op := by
  rw [hashBody, List.mem_append, List.mem_append] at h
  rcases h with (h | h) | h
  · rcases mem_lanePhase h with rfl | rfl | rfl | rfl <;> exact ⟨nofun, le_rfl⟩
  · rcases mem_serialPhase h with rfl | rfl <;> exact ⟨nofun, le_rfl⟩
  · rcases mem_tailPhase h with rfl | rfl
    · refine ⟨nofun, ?_⟩
      simp only [lineAdvance, lineReads]
      split_ifs <;> omega
    · exact ⟨nofun, le_rfl⟩

theorem lineAdvance_le_lineReads {op : MicroOp} {len : Nat} (h : op ∈ hashProgram (hashCounters len))
    (overRead : Bool) : lineAdvance op ≤ lineReads overRead op := by
  rw [hashProgram_eq_body, List.mem_append, List.mem_singleton] at h
  rcases h with h | rfl
  · exact (of_mem_hashBody h (Nat.mod_lt _ (by decide)) overRead).2
  · exact le_rfl

/-! ### One line as an access -/

theorem accessThen_empty (s : State) (fa : DWord) (u : State) : accessThen s s.ptr.toNat 0 fa u = .done u := by
  have htop : ¬ Config.addressSpace < s.ptr.toNat + 0 := not_lt.mpr s.ptr.isLt.le
  have hanswered : portAnswer s s.ptr.toNat 0 = .answered :=
    (portAnswer_answered_iff ..).mpr ⟨touches_empty .., touches_empty .., touches_empty ..⟩
  rw [accessThen, if_neg htop, hanswered]

/-- A line is an access of the bytes it reads. -/
theorem microEffect_eq_accessThen (op : MicroOp) (s : State) :
    ∃ fa t, microEffect op s = accessThen s s.ptr.toNat (lineReads s.tailMode op) fa t := by
  cases op with
  | linit | lstep | loadTmp | loadpTmp => exact ⟨_, _, rfl⟩
  | lredAcc | zeroAcc | compAcc | finAcc => exact ⟨0, _, (accessThen_empty s 0 _).symm⟩

/-- The `n` bytes from PTR on lie in the address space and their reads are answered, with data or a refusal. -/
def AnsweredFor (s : State) (n : Nat) : Prop :=
  s.ptr.toNat + n ≤ Config.addressSpace ∧ Answering s s.ptr.toNat n

/-- The platform admits the `n` bytes from PTR on. -/
def ReadableFor (s : State) (n : Nat) : Prop := Readable s s.ptr.toNat n

theorem AnsweredFor.mono {s : State} {m n : Nat} (h : AnsweredFor s n) (hm : m ≤ n) : AnsweredFor s m := by
  obtain ⟨htop, hanswer⟩ := h
  exact ⟨by omega, fun i hi => hanswer i (by omega)⟩

/-- Answered bytes of which one is not admitted are refused. -/
theorem portAnswer_of_not_readable {s : State} {a n : Nat} (hanswer : Answering s a n) (hread : ¬ Readable s a n) :
    portAnswer s a n = .refused := by
  have hside : touches s .sideEffect a n = false := (touches_false_iff ..).mpr fun i hi => (hanswer i hi).2
  have hsilent : touches s .silent a n = false := (touches_false_iff ..).mpr fun i hi => (hanswer i hi).1
  have hrefusing : touches s .refusing a n = true := by
    by_contra h
    exact hread fun i hi => by simpa [memAdmit] using (touches_false_iff ..).mp (Bool.eq_false_iff.mpr h) i hi
  simp [portAnswer, hside, hsilent, hrefusing]

/-- A line whose reads are answered finishes or faults with ACCESS_FAULT, as its bytes are admitted or not (R304). -/
theorem microEffect_of_answered {op : MicroOp} {s : State} (h : AnsweredFor s (lineReads s.tailMode op)) :
    (ReadableFor s (lineReads s.tailMode op) ∧ ∃ t, microEffect op s = .done t) ∨
      (¬ ReadableFor s (lineReads s.tailMode op) ∧ ∃ fa, microEffect op s = .fault s .accessFault fa) := by
  obtain ⟨htop, hanswer⟩ := h
  obtain ⟨fa, t, haccess⟩ := microEffect_eq_accessThen op s
  rw [haccess, accessThen, if_neg (not_lt.mpr htop)]
  by_cases hread : ReadableFor s (lineReads s.tailMode op)
  · rw [portAnswer_of_readable hread hanswer]
    exact .inl ⟨hread, t, rfl⟩
  · rw [portAnswer_of_not_readable hanswer hread]
    exact .inr ⟨hread, fa, rfl⟩

/-! ### From a line to the lines after it -/

/-- Below the top of the address space, the bytes from PTR on after a line are those past its move of PTR. Where PTR
comes to the very top and wraps, there are none. -/
theorem ptr_after_line {op : MicroOp} {s t : State} {n : Nat} (ht : microEffect op s = .done t)
    (htop : s.ptr.toNat + (lineAdvance op + n) ≤ Config.addressSpace) :
    t.ptr.toNat + n ≤ Config.addressSpace ∧
      ∀ k < n, t.ptr.toNat + k = s.ptr.toNat + (lineAdvance op + k) := by
  have hptr : t.ptr.toNat = (s.ptr.toNat + lineAdvance op) % 2 ^ 64 := by
    rw [microEffect_done_ptr ht, toNat_add_ofNat]
  simp only [Config.addressSpace] at htop ⊢
  constructor
  · omega
  · intro k hk
    omega

theorem touches_after_line {op : MicroOp} {s t : State} (ht : microEffect op s = .done t) (k : RegionKind) (a n : Nat) :
    touches (advance (snapshot s) t) k a n = touches s k a n := by
  simp [touches, microEffect_done_regions ht]

theorem AnsweredFor.after_line {op : MicroOp} {s t : State} {n : Nat} (h : AnsweredFor s (lineAdvance op + n))
    (ht : microEffect op s = .done t) : AnsweredFor (advance (snapshot s) t) n := by
  obtain ⟨htop, hanswer⟩ := h
  obtain ⟨htop', haddr⟩ := ptr_after_line ht htop
  refine ⟨htop', fun k hk => ?_⟩
  rw [touches_after_line ht, touches_after_line ht, advance_ptr, haddr k hk]
  exact hanswer (lineAdvance op + k) (by omega)

/-- The reach of a line and the lines after it is admitted exactly where the line's bytes and, after it, theirs are. -/
theorem readableFor_cons_iff {op : MicroOp} {s t : State} {m n : Nat} (ht : microEffect op s = .done t)
    (htop : s.ptr.toNat + (lineAdvance op + n) ≤ Config.addressSpace) (hadv : lineAdvance op ≤ m) :
    ReadableFor s (max m (lineAdvance op + n)) ↔ ReadableFor s m ∧ ReadableFor (advance (snapshot s) t) n := by
  obtain ⟨_, haddr⟩ := ptr_after_line ht htop
  have hrest (k : Nat) (hk : k < n) : memAdmit (advance (snapshot s) t) ((advance (snapshot s) t).ptr.toNat + k) =
      memAdmit s (s.ptr.toNat + (lineAdvance op + k)) := by
    rw [memAdmit, touches_after_line ht, advance_ptr, haddr k hk, memAdmit]
  constructor
  · intro h
    exact ⟨fun k hk => h k (by omega), fun k hk => (hrest k hk).trans (h _ (by omega))⟩
  · rintro ⟨hline, hlines⟩ k hk
    by_cases hkm : k < m
    · exact hline k hkm
    · have hk' := hlines (k - lineAdvance op) (by omega)
      rwa [hrest _ (by omega), show lineAdvance op + (k - lineAdvance op) = k by omega] at hk'

/-! ### The lines in a row -/

/-- The lines end at a line whose read is refused; the lines before it have finished. -/
def EndsRefused (p : List MicroOp) (s : State) : Prop :=
  ∃ before op after u fa, p = before ++ op :: after ∧ runMicro before s = .done u ∧
    microEffect op u = .fault u .accessFault fa

theorem runMicro_cons_done {op : MicroOp} {s t : State} (ht : microEffect op s = .done t) (p : List MicroOp) :
    runMicro (op :: p) s = runMicro p (advance (snapshot s) t) := by
  simp only [runMicro, microStep, ht]

theorem EndsRefused.cons {op : MicroOp} {p : List MicroOp} {s t : State} (ht : microEffect op s = .done t)
    (h : EndsRefused p (advance (snapshot s) t)) : EndsRefused (op :: p) s := by
  obtain ⟨before, op', after, u, fa, rfl, hrun, hfault⟩ := h
  exact ⟨op :: before, op', after, u, fa, rfl, (runMicro_cons_done ht before).trans hrun, hfault⟩

/-- Lines whose reads are answered finish, or end at a refused line, as their whole reach is admitted or not (R283). -/
theorem runMicro_of_answered {p : List MicroOp} {s : State}
    (hadv : ∀ op ∈ p, lineAdvance op ≤ lineReads s.tailMode op) (h : AnsweredFor s (linesReach s.tailMode p)) :
    (ReadableFor s (linesReach s.tailMode p) ∧ ∃ t, runMicro p s = .done t) ∨
      (¬ ReadableFor s (linesReach s.tailMode p) ∧ EndsRefused p s) := by
  induction p generalizing s with
  | nil => exact .inl ⟨fun k hk => absurd hk (Nat.not_lt_zero k), s, rfl⟩
  | cons op p ih =>
    rw [linesReach] at h ⊢
    rcases microEffect_of_answered (h.mono (le_max_left ..)) with ⟨hline, t, ht⟩ | ⟨hline, fa, hfault⟩
    · have hrest := h.mono (le_max_right ..)
      have hmode : (advance (snapshot s) t).tailMode = s.tailMode :=
        (advance_tailMode ..).trans (microEffect_done_tailMode ht)
      have hafter := ih (s := advance (snapshot s) t)
      rw [hmode] at hafter
      rw [readableFor_cons_iff ht hrest.1 (hadv op List.mem_cons_self), runMicro_cons_done ht]
      rcases hafter (fun op' hop => hadv op' (List.mem_cons_of_mem op hop)) (hrest.after_line ht) with
        ⟨hlines, hdone⟩ | ⟨hlines, hends⟩
      · exact .inl ⟨⟨hline, hlines⟩, hdone⟩
      · exact .inr ⟨fun hall => hlines hall.2, hends.cons ht⟩
    · exact .inr ⟨fun hall => hline fun k hk => hall k (lt_of_lt_of_le hk (le_max_left ..)),
        [], op, p, s, fa, rfl, rfl, hfault⟩

theorem runMicro_of_fault {before after : List MicroOp} {op : MicroOp} {s u : State} {c : Cause} {fa : DWord}
    (hrun : runMicro before s = .done u) (hfault : microEffect op u = .fault u c fa) :
    runMicro (before ++ op :: after) s = .fault u c fa := by
  rw [runMicro_append_done hrun]
  simp only [runMicro, microStep, hfault]

/-! ### HASH past its launch -/

/-- HASH with its counters computed, at the first line of its microprogram (R271). -/
def launched (s : State) : State := { s with counters := some (hashCounters s.len.toNat) }

@[simp] theorem launched_result (s : State) : (launched s).result = s.result := rfl
@[simp] theorem launched_len (s : State) : (launched s).len = s.len := rfl

/-- Where the footprint is in the address space and answered, HASH is its microprogram. -/
theorem exec_hash_of_answered {s : State} (h : AnsweredFor s (footprint .hash s)) :
    exec .hash s = conclude (runMicro (hashProgram (hashCounters s.len.toNat)) (launched s)) := by
  obtain ⟨htop, hanswer⟩ := h
  have hside : touches s .sideEffect s.ptr.toNat (footprint .hash s) = false :=
    (touches_false_iff ..).mpr fun i hi => (hanswer i hi).2
  have hlaunch : hashLaunch s = .done (launched s) := by
    rw [hashLaunch, hashReads_eq_footprint, if_neg (not_lt.mpr htop), hside]
    rfl
  change conclude (hashEffect s) = _
  rw [hashEffect, hlaunch]

/-- The microprogram finishes, or ends at a refused line, as the footprint is readable or not. -/
theorem hashProgram_of_answered {s : State} (h : AnsweredFor s (footprint .hash s)) :
    (ReadableFor s (footprint .hash s) ∧
        ∃ t, runMicro (hashProgram (hashCounters s.len.toNat)) (launched s) = .done t) ∨
      (¬ ReadableFor s (footprint .hash s) ∧ EndsRefused (hashProgram (hashCounters s.len.toNat)) (launched s)) := by
  rw [← linesReach_hashProgram] at h ⊢
  exact runMicro_of_answered (s := launched s) (fun _ hop => lineAdvance_le_lineReads hop _) h

/-- Only the finalizer writes RESULT. -/
theorem microEffect_done_result {op : MicroOp} {s t : State} (h : microEffect op s = .done t) (hop : op ≠ .finAcc) :
    t.result = s.result := by
  cases op with
  | linit | lstep | loadTmp | loadpTmp => obtain ⟨rfl, _⟩ := accessThen_done h; rfl
  | lredAcc | zeroAcc | compAcc => cases h; rfl
  | finAcc => exact absurd rfl hop

theorem runMicro_done_result {p : List MicroOp} {s u : State} (h : runMicro p s = .done u)
    (hp : ∀ op ∈ p, op ≠ .finAcc) : u.result = s.result := by
  induction p generalizing s with
  | nil => cases h; rfl
  | cons op p ih =>
    rcases microStep_cases op s with ⟨t, ht, hm⟩ | ⟨c, a, _, hm⟩ | ⟨_, hm⟩ | ⟨_, hm⟩ <;>
      simp only [runMicro, hm] at h
    · rw [ih h fun op' hop => hp op' (List.mem_cons_of_mem op hop), advance_result,
        microEffect_done_result ht (hp op List.mem_cons_self)]
    · cases h
    · cases h
    · cases h

theorem runMicro_done_len {p : List MicroOp} {s u : State} (h : runMicro p s = .done u) : u.len = s.len := by
  have hframe : engineFrame (complete u) = engineFrame s := engineFrame_runMicro (congrArg conclude h)
  change (engineFrame (complete u)).len = (engineFrame s).len
  rw [hframe]

/-- The lines before a line of HASH hold no finalizer: it is the last. -/
theorem ne_finAcc_of_before {ct : HashCounters} {before after : List MicroOp} {op : MicroOp} (hr : ct.r < 16)
    (h : hashProgram ct = before ++ op :: after) : ∀ op' ∈ before, op' ≠ .finAcc := by
  have hbody : hashBody ct = before ++ (op :: after).dropLast := by
    rw [← List.dropLast_append_of_ne_nil (List.cons_ne_nil op after), ← h, hashProgram_eq_body, List.dropLast_concat]
  intro op' hop
  have hmem : op' ∈ hashBody ct := hbody ▸ List.mem_append_left _ hop
  exact (of_mem_hashBody hmem hr false).1

/-- Settles O32: the microprogram ends at a refused line, and the lines before it are not the finalizer. -/
theorem hashFaultsAtItsFirstRefusedLine : Obligations.HashFaultsAtItsFirstRefusedLine := by
  intro s htop hanswer hread
  have hanswered : AnsweredFor s (footprint .hash s) := ⟨htop, hanswer⟩
  rcases hashProgram_of_answered hanswered with ⟨hadmitted, _⟩ | ⟨_, before, op, after, u, fa, hp, hrun, hfault⟩
  · exact absurd hadmitted hread
  · refine ⟨before, op, after, u, fa, hp, hrun, hfault, ?_, ?_, ?_⟩
    · rw [exec_hash_of_answered hanswered, hp, runMicro_of_fault hrun hfault]
      rfl
    · rw [← launched_result s]
      exact runMicro_done_result hrun (ne_finAcc_of_before (Nat.mod_lt _ (by decide)) hp)
    · rw [← launched_len s]
      exact runMicro_done_len hrun

end Sys2Proof.Proofs
end

section
/-! SUPPORT. What HASH leaves in the registers (R272 to R275): a line is a function of the registers it finds, and the
phases of the microprogram are the lane folds and the tree, the serial fold, the tail and the finalizer. -/

namespace Sys2Proof.Proofs

open Sys2Proof.Machine Sys2Proof.Safety

/-! ### A line as a function of the registers -/

/-- The registers after a line that finishes: it finds `sn` in them, and in `s` the memory and the salts. -/
def afterLine (s : State) (op : MicroOp) (sn : Snapshot) : Snapshot :=
  match op with
  | .linit => ⟨setLanes sn.v fun i => blockAt s (sn.ptr.toNat + 16 * i), sn.ptr + 128, sn.result⟩
  | .lstep =>
    ⟨setLanes sn.v fun i => compress (getReg sn.v (laneReg i)) (blockAt s (sn.ptr.toNat + 16 * i)), sn.ptr + 128,
      sn.result⟩
  | .lredAcc => ⟨{ sn.v with acc := laneTree fun i => getReg sn.v (laneReg i) }, sn.ptr, sn.result⟩
  | .zeroAcc => ⟨{ sn.v with acc := 0 }, sn.ptr, sn.result⟩
  | .loadTmp => ⟨{ sn.v with tmp := blockAt s sn.ptr.toNat }, sn.ptr + 16, sn.result⟩
  | .compAcc => ⟨{ sn.v with acc := compress sn.v.acc sn.v.tmp }, sn.ptr, sn.result⟩
  | .loadpTmp r => ⟨{ sn.v with tmp := partialAt s sn.ptr.toNat r }, sn.ptr + BitVec.ofNat 64 r, sn.result⟩
  | .finAcc => ⟨sn.v, sn.ptr, hashOutput s sn.v.acc⟩

/-- The registers after lines that all finish. -/
def afterLines (s : State) (p : List MicroOp) (sn : Snapshot) : Snapshot :=
  p.foldl (fun found op => afterLine s op found) sn

theorem afterLines_cons (s : State) (op : MicroOp) (p : List MicroOp) (sn : Snapshot) :
    afterLines s (op :: p) sn = afterLines s p (afterLine s op sn) := rfl

theorem afterLines_append (s : State) (p q : List MicroOp) (sn : Snapshot) :
    afterLines s (p ++ q) sn = afterLines s q (afterLines s p sn) := List.foldl_append

theorem microEffect_done_snapshot {op : MicroOp} {s t : State} (h : microEffect op s = .done t) :
    snapshot t = afterLine s op (snapshot s) := by
  cases op with
  | linit | lstep | loadTmp | loadpTmp => obtain ⟨rfl, _⟩ := accessThen_done h; rfl
  | lredAcc | zeroAcc | compAcc | finAcc => cases h; rfl

/-- A line keeps the memory and the salts that the lines after it find. -/
theorem afterLine_advance_withEffect (s t : State) (sn : Snapshot) (op : MicroOp) (found : Snapshot) :
    afterLine (advance sn (withEffect s t)) op found = afterLine s op found := by
  cases op <;> rfl

/-- Lines that finish leave what their functions give in the registers; completed, the state shows nothing else of
them. -/
theorem runMicro_done {p : List MicroOp} {s u : State} (h : runMicro p s = .done u) :
    snapshot u = afterLines s p (snapshot s) ∧ complete u = complete (withEffect s u) := by
  induction p generalizing s with
  | nil => cases h; exact ⟨rfl, rfl⟩
  | cons op p ih =>
    rcases microStep_cases op s with ⟨t, ht, hm⟩ | ⟨c, a, _, hm⟩ | ⟨_, hm⟩ | ⟨_, hm⟩ <;>
      simp only [runMicro, hm] at h
    · obtain ⟨hregs, hrest⟩ := ih h
      have hline : snapshot t = afterLine s op (snapshot s) := microEffect_done_snapshot ht
      rw [microEffect_done ht] at hregs hrest
      refine ⟨?_, hrest⟩
      rw [afterLines_cons, ← hline, hregs]
      simp only [afterLines, afterLine_advance_withEffect]
      rfl
    · cases h
    · cases h
    · cases h

/-! ### The blocks a line reads -/

theorem blockAt_input (s : State) (i : Nat) : blockAt s (s.ptr.toNat + 16 * i) = hashBlock (inputByte s) i := by
  simp only [blockAt, hashBlock, inputByte, Nat.add_assoc]

theorem partialAt_input (s : State) (total r : Nat) :
    partialAt s (s.ptr.toNat + 16 * total) r = hashTail (inputByte s) total r := by
  simp only [partialAt, hashTail, inputByte, Nat.add_assoc]

theorem setLanes_congr (v : VRegs) {x y : Nat → Vec} (h : ∀ i < 8, x i = y i) : setLanes v x = setLanes v y := by
  simp [setLanes, h]

theorem setLanes_setLanes (v : VRegs) (x y : Nat → Vec) : setLanes (setLanes v x) y = setLanes v y := rfl

/-! ### The phases -/

/-- The registers with PTR moved past the first `n` bytes of the input. -/
def atByte (s : State) (n : Nat) (v : VRegs) : Snapshot := ⟨v, s.ptr + BitVec.ofNat 64 n, s.result⟩

theorem snapshot_eq_atByte (s : State) : snapshot s = atByte s 0 s.v := by
  simp [snapshot, atByte]

/-- LINIT and `g` LSTEPs fold `g + 1` groups of 8 blocks into the lanes (R220, R223, R272). -/
theorem afterLines_lanes (s : State) {g : Nat} (htop : s.ptr.toNat + 128 * (g + 1) ≤ Config.addressSpace) :
    afterLines s (.linit :: List.replicate g .lstep) (atByte s 0 s.v) =
      atByte s (128 * (g + 1)) (setLanes s.v fun i => hashLane (inputByte s) i g) := by
  induction g with
  | zero =>
    simp only [List.replicate_zero, afterLines, List.foldl_cons, List.foldl_nil, afterLine, atByte, BitVec.add_zero,
      blockAt_input]
    rfl
  | succ g ih =>
    have hptr : (s.ptr + BitVec.ofNat 64 (128 * (g + 1))).toNat = s.ptr.toNat + 128 * (g + 1) :=
      toNat_ptr_add (by omega)
    have hblock (i : Nat) : blockAt s (s.ptr.toNat + 128 * (g + 1) + 16 * i) =
        hashBlock (inputByte s) (8 * (g + 1) + i) := by
      rw [← blockAt_input]
      congr 1
      omega
    have hlanes : (setLanes s.v fun i =>
        compress (getReg (setLanes s.v fun j => hashLane (inputByte s) j g) (laneReg i))
          (hashBlock (inputByte s) (8 * (g + 1) + i))) = setLanes s.v fun i => hashLane (inputByte s) i (g + 1) :=
      setLanes_congr s.v fun i hi => by rw [getReg_setLanes_lane s.v _ hi, hashLane]
    rw [List.replicate_succ', ← List.cons_append, afterLines_append, ih (by omega),
      show 128 * (g + 1 + 1) = 128 * (g + 1) + 128 by omega]
    simp only [afterLines, List.foldl_cons, List.foldl_nil, afterLine, atByte, hptr, hblock, setLanes_setLanes, hlanes,
      BitVec.ofNat_add, BitVec.add_assoc]
    rfl

/-- The registers before the serial blocks (R272). -/
def lanePhaseRegs (b : Nat → Byte) (len : Nat) (v : VRegs) : VRegs :=
  { (if 128 ≤ len then setLanes v fun i => hashLane b i (len / 16 / 8 - 1) else v) with acc := hashStart b len }

theorem afterLines_lanePhase (s : State) {len : Nat} (htop : s.ptr.toNat + len ≤ Config.addressSpace) :
    afterLines s (lanePhase (hashCounters len)) (atByte s 0 s.v) =
      atByte s (16 * (len / 16 / 8 * 8)) (lanePhaseRegs (inputByte s) len s.v) := by
  by_cases hlen : 128 ≤ len
  · obtain ⟨g, hg⟩ : ∃ g, len / 16 / 8 = g + 1 := ⟨len / 16 / 8 - 1, by omega⟩
    have hunroll : (hashCounters len).unroll / 8 - 1 = g := by
      simp only [hashCounters]
      omega
    rw [lanePhase, if_pos ((unrolled_iff len).mpr hlen), hunroll, ← List.cons_append, afterLines_append,
      afterLines_lanes s (by omega), lanePhaseRegs, hashStart, if_pos hlen, if_pos hlen, hg,
      show 16 * ((g + 1) * 8) = 128 * (g + 1) by omega]
    rfl
  · rw [lanePhase, if_neg (mt (unrolled_iff len).mp hlen), lanePhaseRegs, hashStart, if_neg hlen, if_neg hlen,
      show 16 * (len / 16 / 8 * 8) = 0 by omega]
    rfl

/-- The registers after `n` blocks from block `k` on are folded serially (R272). -/
def serialPhaseRegs (b : Nat → Byte) (v : VRegs) (k n : Nat) : VRegs :=
  { v with acc := hashFold b v.acc k n, tmp := if n = 0 then v.tmp else hashBlock b (k + n - 1) }

theorem afterLines_serialPhase (s : State) (v : VRegs) {k n : Nat}
    (htop : s.ptr.toNat + 16 * (k + n) ≤ Config.addressSpace) :
    afterLines s (serialPhase n) (atByte s (16 * k) v) =
      atByte s (16 * (k + n)) (serialPhaseRegs (inputByte s) v k n) := by
  induction n generalizing k v with
  | zero => rfl
  | succ n ih =>
    have hptr : (s.ptr + BitVec.ofNat 64 (16 * k)).toNat = s.ptr.toNat + 16 * k := toNat_ptr_add (by omega)
    have hline : afterLine s .compAcc (afterLine s .loadTmp (atByte s (16 * k) v)) =
        atByte s (16 * (k + 1)) { v with
          acc := compress v.acc (hashBlock (inputByte s) k), tmp := hashBlock (inputByte s) k } := by
      simp only [afterLine, atByte, hptr, blockAt_input, BitVec.add_assoc, Nat.mul_add, BitVec.ofNat_add]
      rfl
    rw [serialPhase, afterLines_cons, afterLines_cons, hline, ih _ (by omega), show k + 1 + n = k + (n + 1) by omega]
    congr 1
    simp only [serialPhaseRegs, hashFold, Nat.add_one_ne_zero, if_false]
    congr 1
    split_ifs with hn
    · rw [hn]; rfl
    · congr 1
      omega

/-- The registers after the tail of `r` bytes behind `total` blocks is absorbed (R272, R273). -/
def tailPhaseRegs (b : Nat → Byte) (v : VRegs) (total r : Nat) : VRegs :=
  if 0 < r then { v with acc := compress v.acc (hashTail b total r), tmp := hashTail b total r } else v

theorem afterLines_tailPhase (s : State) (v : VRegs) {total r : Nat}
    (htop : s.ptr.toNat + (16 * total + r) ≤ Config.addressSpace) :
    afterLines s (tailPhase r) (atByte s (16 * total) v) =
      atByte s (16 * total + r) (tailPhaseRegs (inputByte s) v total r) := by
  unfold tailPhase tailPhaseRegs
  split_ifs with hr
  · have hptr : (s.ptr + BitVec.ofNat 64 (16 * total)).toNat = s.ptr.toNat + 16 * total := toNat_ptr_add (by omega)
    simp only [afterLines, List.foldl_cons, List.foldl_nil, afterLine, atByte, hptr, partialAt_input, BitVec.add_assoc,
      BitVec.ofNat_add]
  · obtain rfl : r = 0 := by omega
    rfl

/-! ### The whole microprogram -/

theorem hashRegs_eq_phases (b : Nat → Byte) (len : Nat) (v : VRegs) :
    tailPhaseRegs b (serialPhaseRegs b (lanePhaseRegs b len v) (len / 16 / 8 * 8) (len / 16 - len / 16 / 8 * 8))
      (len / 16) (len % 16) = hashRegs b len v := by
  have htmp : (lanePhaseRegs b len v).tmp = v.tmp := by
    unfold lanePhaseRegs
    split_ifs <;> rfl
  have hfull : hashFold b (lanePhaseRegs b len v).acc (len / 16 / 8 * 8) (len / 16 - len / 16 / 8 * 8) =
      hashFull b len := rfl
  by_cases htail : 0 < len % 16
  · simp only [tailPhaseRegs, serialPhaseRegs, hashRegs, hashAcc, hashTmp, if_pos htail, hfull]
    rfl
  · simp only [tailPhaseRegs, serialPhaseRegs, hashRegs, hashAcc, hashTmp, if_neg htail, hfull, htmp]
    by_cases hserial : len / 16 / 8 * 8 < len / 16
    · rw [if_neg (by omega), if_pos hserial,
        show len / 16 / 8 * 8 + (len / 16 - len / 16 / 8 * 8) - 1 = len / 16 - 1 by omega]
      rfl
    · rw [if_pos (by omega), if_neg hserial]
      rfl

/-- The lines of HASH leave the registers of R274. -/
theorem afterLines_hashProgram {s : State} (htop : s.ptr.toNat + s.len.toNat ≤ Config.addressSpace) :
    afterLines s (hashProgram (hashCounters s.len.toNat)) (snapshot s) =
      ⟨hashRegs (inputByte s) s.len.toNat s.v, s.ptr + s.len,
        hashOutput s (hashAcc (inputByte s) s.len.toNat)⟩ := by
  have hserial := afterLines_serialPhase s (lanePhaseRegs (inputByte s) s.len.toNat s.v)
    (k := s.len.toNat / 16 / 8 * 8) (n := s.len.toNat / 16 - s.len.toNat / 16 / 8 * 8) (by omega)
  rw [show s.len.toNat / 16 / 8 * 8 + (s.len.toNat / 16 - s.len.toNat / 16 / 8 * 8) = s.len.toNat / 16 by omega]
    at hserial
  rw [hashProgram, afterLines_append, afterLines_append, afterLines_append, snapshot_eq_atByte,
    afterLines_lanePhase s htop]
  simp only [hashCounters]
  rw [hserial, afterLines_tailPhase s _ (by omega), hashRegs_eq_phases, Nat.div_add_mod]
  simp only [afterLines, List.foldl_cons, List.foldl_nil, afterLine, atByte, BitVec.ofNat_toNat, BitVec.setWidth_eq]
  rfl

theorem len_le_footprint_hash (s : State) : s.len.toNat ≤ footprint .hash s := by
  rw [footprint_hash]
  split_ifs <;> omega

/-- Settles O26: every line finishes, and what the lines leave in the registers is all that the completed state
shows. -/
theorem hashComputesTheHash : Obligations.HashComputesTheHash := by
  rintro s ⟨htop, hread, hanswer⟩
  have hanswered : AnsweredFor s (footprint .hash s) := ⟨htop, hanswer⟩
  rcases hashProgram_of_answered hanswered with ⟨_, u, hrun⟩ | ⟨hrefused, _⟩
  · obtain ⟨hregs, hcomplete⟩ := runMicro_done hrun
    have hinput : s.ptr.toNat + s.len.toNat ≤ Config.addressSpace :=
      (Nat.add_le_add_left (len_le_footprint_hash s) _).trans htop
    have hafter : snapshot u = _ := hregs.trans (afterLines_hashProgram (s := launched s) hinput)
    simp only [snapshot, Snapshot.mk.injEq] at hafter
    obtain ⟨hv, hptr, hresult⟩ := hafter
    rw [exec_hash_of_answered hanswered, hrun, conclude, hcomplete, withEffect, hv, hptr, hresult]
    rfl
  · exact absurd hread hrefused

/-! ### The empty input -/

theorem ready_hash_of_len_zero {s : State} (h : s.len = 0) : Ready .hash s := by
  have hnothing : footprint .hash s = 0 := by simp [footprint_hash, h]
  rw [Ready, hnothing]
  exact ⟨s.ptr.isLt.le, nofun, nofun⟩

/-- Settles O27: with no byte to read HASH is Ready, and none of its phases but the zero accumulator and the finalizer
does anything. -/
theorem hashOfNothing : Obligations.HashOfNothing := by
  intro s h
  rw [hashComputesTheHash s (ready_hash_of_len_zero h), h,
    show s.ptr + 0 = s.ptr from BitVec.add_zero _, hashOutput, finalizerRounds_eq]
  rfl

end Sys2Proof.Proofs
end

section
/-! SUPPORT. The hash as a function of its input bytes (R276 to R280, R285): it is a tree of compressions with each byte
under one leaf, so it reads no other byte, and a change of one byte passes through every node above it. -/

namespace Sys2Proof.Proofs

open Sys2Proof.Machine Sys2Proof.Safety

/-! ### What absorbs its bytes -/

/-- `f` reads the input bytes at the positions `P` alone, and changing one of them changes its value. -/
structure Absorbs (f : (Nat → Byte) → Vec) (P : Nat → Prop) : Prop where
  only : ∀ b c, (∀ j, P j → b j = c j) → f b = f c
  every : ∀ b c k, P k → b k ≠ c k → (∀ j, P j → j ≠ k → b j = c j) → f b ≠ f c

theorem absorbs_const (v : Vec) {P : Nat → Prop} (hP : ∀ j, ¬ P j) : Absorbs (fun _ => v) P where
  only _ _ _ := rfl
  every _ _ k hk := absurd hk (hP k)

theorem compress_left_injective (b : Vec) : Function.Injective fun a => compress a b := fun x y h => by
  simp only [compress_eq] at h
  exact aesR_injective ((BitVec.xor_left_inj b).mp h)

theorem compress_right_injective (a : Vec) : Function.Injective fun b => compress a b := fun x y h => by
  simp only [compress_eq] at h
  exact (BitVec.xor_right_inj _).mp h

/-- A compression of two things that read different bytes: what changes in one of them alone changes the whole
(R278). -/
theorem Absorbs.compression {f g : (Nat → Byte) → Vec} {P Q R : Nat → Prop} (hf : Absorbs f P) (hg : Absorbs g Q)
    (disjoint : ∀ j, P j → ¬ Q j) (hR : ∀ j, R j ↔ P j ∨ Q j) :
    Absorbs (fun b => compress (f b) (g b)) R where
  only b c h := by
    rw [hf.only b c fun j hj => h j ((hR j).mpr (.inl hj)), hg.only b c fun j hj => h j ((hR j).mpr (.inr hj))]
  every b c k hk hne h := by
    rcases (hR k).mp hk with hP | hQ
    · have hsame : g b = g c := hg.only b c fun j hj =>
        h j ((hR j).mpr (.inr hj)) fun heq => disjoint k hP (heq ▸ hj)
      rw [hsame]
      exact (compress_left_injective _).ne (hf.every b c k hP hne fun j hj => h j ((hR j).mpr (.inl hj)))
    · have hsame : f b = f c := hf.only b c fun j hj =>
        h j ((hR j).mpr (.inl hj)) fun heq => disjoint j hj (heq ▸ hQ)
      rw [hsame]
      exact (compress_right_injective _).ne (hg.every b c k hQ hne fun j hj => h j ((hR j).mpr (.inr hj)))

/-- `n` bytes from position `a` on in the lane bytes of a vector, the others 0. -/
theorem absorbs_vecOfBytes (a : Nat) {n : Nat} (hn : n ≤ 16) :
    Absorbs (fun b => vecOfBytes fun j => if j < n then b (a + j) else 0) fun j => a ≤ j ∧ j < a + n where
  only b c h := vecOfBytes_congr fun j _ => by
    split_ifs with hj
    · exact h _ ⟨by omega, by omega⟩
    · rfl
  every b c k hk hne _ heq := by
    obtain ⟨hak, hkn⟩ := hk
    have hbyte := congrArg (laneByte · (k - a)) heq
    simp only [laneByte_vecOfBytes _ (show k - a < 16 by omega), if_pos (show k - a < n by omega),
      Nat.add_sub_cancel' hak] at hbyte
    exact hne hbyte

theorem absorbs_hashTail (total : Nat) {r : Nat} (hr : r ≤ 16) :
    Absorbs (fun b => hashTail b total r) fun j => 16 * total ≤ j ∧ j < 16 * total + r :=
  absorbs_vecOfBytes (16 * total) hr

/-- A full block is a partial block of 16 bytes. -/
theorem hashBlock_eq_hashTail (b : Nat → Byte) (i : Nat) : hashBlock b i = hashTail b i 16 :=
  vecOfBytes_congr fun _ hj => (if_pos hj).symm

theorem absorbs_hashBlock (i : Nat) : Absorbs (hashBlock · i) fun j => 16 * i ≤ j ∧ j < 16 * i + 16 := by
  simp only [hashBlock_eq_hashTail]
  exact absorbs_hashTail i le_rfl

/-! ### The parts of the hash -/

theorem absorbs_hashLane {i : Nat} (hi : i < 8) (g : Nat) :
    Absorbs (hashLane · i g) fun j => j / 16 / 8 ≤ g ∧ i ≤ j / 16 % 8 ∧ j / 16 % 8 < i + 1 := by
  induction g with
  | zero =>
    obtain ⟨only, every⟩ := absorbs_hashBlock i
    have hpos (j : Nat) : (j / 16 / 8 ≤ 0 ∧ i ≤ j / 16 % 8 ∧ j / 16 % 8 < i + 1) ↔
        16 * i ≤ j ∧ j < 16 * i + 16 := by omega
    simp only [hpos, hashLane]
    exact ⟨only, every⟩
  | succ g ih =>
    refine ih.compression (absorbs_hashBlock (8 * (g + 1) + i)) (fun j => ?_) fun j => ?_
    · omega
    · omega

/-- A node of the tree of R226 over lanes side by side. -/
theorem Absorbs.lanes {f h : (Nat → Byte) → Vec} {g i m n : Nat}
    (hf : Absorbs f fun j => j / 16 / 8 ≤ g ∧ i ≤ j / 16 % 8 ∧ j / 16 % 8 < m)
    (hh : Absorbs h fun j => j / 16 / 8 ≤ g ∧ m ≤ j / 16 % 8 ∧ j / 16 % 8 < n)
    (him : i ≤ m := by decide) (hmn : m ≤ n := by decide) :
    Absorbs (fun b => compress (f b) (h b)) fun j => j / 16 / 8 ≤ g ∧ i ≤ j / 16 % 8 ∧ j / 16 % 8 < n :=
  hf.compression hh (fun j => by omega) fun j => by omega

theorem absorbs_laneTree (g : Nat) :
    Absorbs (fun b => laneTree fun i => hashLane b i g) fun j =>
      j / 16 / 8 ≤ g ∧ 0 ≤ j / 16 % 8 ∧ j / 16 % 8 < 8 := by
  have lane (i : Nat) (hi : i < 8 := by decide) := absorbs_hashLane hi g
  exact (((lane 0).lanes (lane 1)).lanes ((lane 2).lanes (lane 3))).lanes
    (((lane 4).lanes (lane 5)).lanes ((lane 6).lanes (lane 7)))

theorem absorbs_hashStart (len : Nat) : Absorbs (hashStart · len) (· < 16 * (len / 16 / 8 * 8)) := by
  unfold hashStart
  split_ifs with hlen
  · obtain ⟨only, every⟩ := absorbs_laneTree (len / 16 / 8 - 1)
    have hpos (j : Nat) : (j / 16 / 8 ≤ len / 16 / 8 - 1 ∧ 0 ≤ j / 16 % 8 ∧ j / 16 % 8 < 8) ↔
        j < 16 * (len / 16 / 8 * 8) := by omega
    simp only [hpos] at only every
    exact ⟨only, every⟩
  · exact absorbs_const 0 fun j => by omega

theorem absorbs_hashFold {acc : (Nat → Byte) → Vec} {k n : Nat} (hacc : Absorbs acc (· < 16 * k)) :
    Absorbs (fun b => hashFold b (acc b) k n) (· < 16 * (k + n)) := by
  induction n generalizing acc k with
  | zero => exact hacc
  | succ n ih =>
    have hblock : Absorbs (fun b => compress (acc b) (hashBlock b k)) (· < 16 * (k + 1)) :=
      hacc.compression (absorbs_hashBlock k) (fun j => by omega) fun j => by omega
    rw [show k + (n + 1) = k + 1 + n by omega]
    exact ih hblock

theorem absorbs_hashFull (len : Nat) : Absorbs (hashFull · len) (· < 16 * (len / 16)) := by
  have hfold := absorbs_hashFold (n := len / 16 - len / 16 / 8 * 8) (absorbs_hashStart len)
  rwa [show len / 16 / 8 * 8 + (len / 16 - len / 16 / 8 * 8) = len / 16 by omega] at hfold

/-- The final accumulator reads the `len` bytes of the input alone, and every one of them reaches it (R278, R280). -/
theorem absorbs_hashAcc (len : Nat) : Absorbs (hashAcc · len) (· < len) := by
  unfold hashAcc
  split_ifs with htail
  · exact (absorbs_hashFull len).compression (absorbs_hashTail (len / 16) (Nat.mod_lt len (by decide)).le)
      (fun j => by omega) fun j => by omega
  · have hfull := absorbs_hashFull len
    rwa [show 16 * (len / 16) = len by omega] at hfull

/-! ### Zero-padding (R285) -/

theorem hashFold_succ (b : Nat → Byte) (acc : Vec) (k n : Nat) :
    hashFold b acc k (n + 1) = compress (hashFold b acc k n) (hashBlock b (k + n)) := by
  induction n generalizing acc k with
  | zero => rfl
  | succ n ih =>
    rw [hashFold, ih, hashFold, show k + 1 + n = k + (n + 1) by omega]

/-- The lanes see the number of whole groups of 8 blocks alone. -/
theorem hashStart_of_groups (b : Nat → Byte) {len len' : Nat} (h : len / 16 / 8 = len' / 16 / 8) :
    hashStart b len = hashStart b len' := by
  by_cases hlen : 128 ≤ len
  · rw [hashStart, hashStart, if_pos hlen, if_pos (by omega), h]
  · rw [hashStart, hashStart, if_neg hlen, if_neg (by omega)]

/-- One more block that completes no group is folded serially. -/
theorem hashFull_next_block (b : Nat → Byte) {len : Nat} (h : (len / 16 + 1) % 8 ≠ 0) :
    hashFull b (16 * (len / 16 + 1)) = compress (hashFull b len) (hashBlock b (len / 16)) := by
  have hblocks : 16 * (len / 16 + 1) / 16 = len / 16 + 1 := by omega
  have hgroups : (len / 16 + 1) / 8 = len / 16 / 8 := by omega
  rw [hashFull, hashStart_of_groups b (len' := len) (by rw [hblocks, hgroups]), hblocks, hgroups,
    show len / 16 + 1 - len / 16 / 8 * 8 = len / 16 - len / 16 / 8 * 8 + 1 by omega, hashFold_succ,
    show len / 16 / 8 * 8 + (len / 16 - len / 16 / 8 * 8) = len / 16 by omega]
  rfl

/-- A partial block and the block it becomes by zero-padding are absorbed alike. -/
theorem hashAcc_zero_padded {b c : Nat → Byte} {len : Nat} (htail : 0 < len % 16) (hgroup : (len / 16 + 1) % 8 ≠ 0)
    (hsame : ∀ j < len, c j = b j) (hzero : ∀ j, len ≤ j → j < 16 * (len / 16 + 1) → c j = 0) :
    hashAcc c (16 * (len / 16 + 1)) = hashAcc b len := by
  have hblock : hashBlock c (len / 16) = hashTail b (len / 16) (len % 16) := vecOfBytes_congr fun j hj => by
    split_ifs with hr
    · exact hsame _ (by omega)
    · exact hzero _ (by omega) (by omega)
  have hfull : hashFull c len = hashFull b len := (absorbs_hashFull len).only c b fun j hj => hsame j (by omega)
  rw [hashAcc, if_neg (by omega), hashFull_next_block c hgroup, hblock, hfull, hashAcc, if_pos htail]

/-! ### The serial reference (R276) -/

theorem hashFull_of_short (b : Nat → Byte) {len : Nat} (h : len < 128) :
    hashFull b len = hashFold b 0 0 (len / 16) := by
  have hgroups : len / 16 / 8 = 0 := by omega
  rw [hashFull, hashStart, if_neg (not_le.mpr h), hgroups]
  rfl

theorem hashAcc_of_short (b : Nat → Byte) {len : Nat} (h : len < 128) : hashAcc b len = serialAcc b len := by
  rw [hashAcc, hashFull_of_short b h]
  rfl

/-! ### The statements -/

theorem hashOutput_of_salts {s t : State} (h1 : s.salt1 = t.salt1) (h2 : s.salt2 = t.salt2) (h3 : s.salt3 = t.salt3)
    (acc : Vec) : hashOutput s acc = hashOutput t acc := by
  rw [hashOutput, hashOutput, h1, h2, h3]

/-- Where HASH is Ready it ends with DONE, ACC and RESULT as the hash of its input bytes says. -/
theorem exec_hash_of_ready {s : State} (h : Ready .hash s) :
    ∃ t, exec .hash s = .next t ∧ t.v.acc = hashAcc (inputByte s) s.len.toNat ∧
      t.result = hashOutput s (hashAcc (inputByte s) s.len.toNat) ∧ t.done = true :=
  ⟨_, hashComputesTheHash s h, rfl, rfl, rfl⟩

/-- Settles O28: the accumulator reads the input bytes alone, and RESULT is a function of it and the salts. -/
theorem hashDependsOnlyOnItsInput : Obligations.HashDependsOnlyOnItsInput := by
  intro s t hs ht hlen h1 h2 h3 hsame
  obtain ⟨s', hexec, hacc, hresult, hdone⟩ := exec_hash_of_ready hs
  obtain ⟨t', hexec', hacc', hresult', hdone'⟩ := exec_hash_of_ready ht
  have hhash : hashAcc (inputByte s) s.len.toNat = hashAcc (inputByte t) t.len.toNat := by
    rw [← hlen]
    exact (absorbs_hashAcc _).only _ _ hsame
  refine ⟨s', t', hexec, hexec', ?_, ?_, hdone, hdone'⟩
  · rw [hresult, hresult', hhash, hashOutput_of_salts h1 h2 h3]
  · rw [hacc, hacc', hhash]

/-- Settles O29: below 128 bytes no block goes to the lanes. -/
theorem shortHashIsTheSerialFold : Obligations.ShortHashIsTheSerialFold := by
  intro s hs hshort
  obtain ⟨t, hexec, hacc, _⟩ := exec_hash_of_ready hs
  exact ⟨t, hexec, hacc.trans (hashAcc_of_short _ hshort)⟩

/-- Settles O30: the padded block is the partial block, absorbed serially in both runs. -/
theorem zeroPaddingKeepsTheHash : Obligations.ZeroPaddingKeepsTheHash := by
  intro s t hs ht htail hgroup hlen h1 h2 h3 hsame hzero
  obtain ⟨s', hexec, hacc, hresult, _⟩ := exec_hash_of_ready hs
  obtain ⟨t', hexec', hacc', hresult', _⟩ := exec_hash_of_ready ht
  rw [hlen] at hzero
  have hhash : hashAcc (inputByte t) t.len.toNat = hashAcc (inputByte s) s.len.toNat := by
    rw [hlen]
    exact hashAcc_zero_padded htail hgroup hsame hzero
  refine ⟨s', t', hexec, hexec', ?_, ?_⟩
  · rw [hacc, hacc', hhash]
  · rw [hresult, hresult', hhash, hashOutput_of_salts h1 h2 h3]

/-- Settles O31: the changed byte lies under one leaf of the tree of compressions. -/
theorem everyInputByteReachesAcc : Obligations.EveryInputByteReachesAcc := by
  intro s t k hs ht hlen hk hne hsame
  obtain ⟨s', hexec, hacc, _⟩ := exec_hash_of_ready hs
  obtain ⟨t', hexec', hacc', _⟩ := exec_hash_of_ready ht
  refine ⟨s', t', hexec, hexec', ?_⟩
  rw [hacc, hacc', ← hlen]
  exact (absorbs_hashAcc _).every _ _ k hk hne hsame

end Sys2Proof.Proofs
end

section
/-! SUPPORT. The faults a command raises (R300 to R306): a word that does not decode faults as the first failing check
of R126 says; a command that reads memory is one access, which faults past the top of the address space before it reads
and at a refused byte, the lanes at their lowest block that holds one. -/

namespace Sys2Proof.Proofs

open Sys2Proof.Machine Sys2Proof.Safety

/-! ### Words that do not decode (R301, R302) -/

theorem opcodeOf_eq_none_iff : ∀ {op : BitVec 8},
    opcodeOf op = none ↔ op.toNat = 0x07 ∨ (0x0D ≤ op.toNat ∧ op.toNat ≤ 0x0F) ∨ 0x11 ≤ op.toNat := by
  decide

theorem decode_of_unassigned {c : CmdWord} (h : opcodeOf (fieldsOf c).op = none) :
    decode c = .error .illegalOpcode := by
  rw [decode, h]

/-- A word with an assigned OP decodes to a command of that opcode or fails one of the checks 2 to 4 (R126). -/
theorem decode_of_assigned {c : CmdWord} {o : Opcode} (ho : opcodeOf (fieldsOf c).op = some o) :
    decode c = .error .illegalOperand ∨ ∃ i, decode c = .ok i ∧ opcode i = o := by
  simp only [decode, ho]
  split_ifs
  · split
    · exact .inl rfl
    · rename_i i hi
      split_ifs
      · exact .inr ⟨i, rfl, opcode_of_operandsOf hi⟩
      · exact .inl rfl
  · exact .inl rfl

/-- A word with an assigned OP decodes exactly when its fields pass the checks 2 to 4 (R126). -/
theorem decodes_iff_checks_pass {c : CmdWord} {o : Opcode} (ho : opcodeOf (fieldsOf c).op = some o) :
    (∃ i, decode c = .ok i) ↔ UnusedZero o (fieldsOf c) ∧ OperandsLegal o (fieldsOf c) := by
  rw [← exists_operandsOf_iff]
  constructor
  · rintro ⟨i, hd⟩
    obtain ⟨hop, hz, hi, hwf⟩ := decode_eq_ok_iff_checks.mp hd
    obtain rfl : opcode i = o := Option.some.inj ((opcodeOf_eq_some_iff.mpr hop).symm.trans ho)
    exact ⟨hz, i, hi, hwf⟩
  · rintro ⟨hz, i, hi, hwf⟩
    obtain rfl := opcode_of_operandsOf hi
    exact ⟨i, decode_eq_ok_iff_checks.mpr ⟨opcodeOf_eq_some_iff.mp ho, hz, hi, hwf⟩⟩

/-- An accepted word that does not decode faults with address 0 (R126). -/
theorem step_of_decode_error {s : State} {c : CmdWord} {e : DecodeFault} (hs : AtCommand s c)
    (hd : decode c = .error e) : step s = .next (raiseFault s (decodeCause e) 0) := by
  obtain ⟨hagenda, ⟨j, hseq⟩, hct⟩ := hs
  simp only [step, hagenda]
  exact AtWord.engineRun_illegal ⟨hct, j, hseq⟩ hd

/-- Settles O6: the unassigned numbers are those the opcode map leaves out. -/
theorem unassignedOpcodeFaults : Obligations.UnassignedOpcodeFaults :=
  fun _ _ hs hop => step_of_decode_error hs (decode_of_unassigned (opcodeOf_eq_none_iff.mpr hop))

/-- Settles O7: an assigned word decodes where the checks 2 to 4 pass and is an illegal operand where one fails. -/
theorem illegalOperandFaults : Obligations.IllegalOperandFaults := by
  intro s c o hs ho
  rcases decode_of_assigned ho with hd | ⟨i, hd, hi⟩
  · refine ⟨fun _ => step_of_decode_error hs hd, fun hz hl => ?_⟩
    obtain ⟨i, hok⟩ := (decodes_iff_checks_pass ho).mpr ⟨hz, hl⟩
    rw [hd] at hok
    cases hok
  · obtain ⟨hz, hl⟩ := (decodes_iff_checks_pass ho).mp ⟨i, hd⟩
    exact ⟨fun hbad => (not_and_or.mpr hbad ⟨hz, hl⟩).elim, fun _ _ => ⟨i, hd, hi⟩⟩

/-! ### Footprints past the top (R90, R303) -/

theorem conclude_accessThen_past_top {s u : State} {n : Nat} {fa : DWord}
    (h : Config.addressSpace < s.ptr.toNat + n) :
    conclude (accessThen s s.ptr.toNat n fa u) = .next (raiseFault s .addrWrap s.ptr) := by
  rw [accessThen, if_pos h, BitVec.ofNat_toNat, BitVec.setWidth_eq, conclude]

theorem exec_hash_past_top {s : State} (h : Config.addressSpace < s.ptr.toNat + footprint .hash s) :
    exec .hash s = .next (raiseFault s .addrWrap s.ptr) := by
  have hlaunch : hashLaunch s = .fault s .addrWrap s.ptr := by
    rw [hashLaunch, hashReads_eq_footprint, if_pos h]
  rw [exec, execHash, hashEffect, hlaunch, conclude]

/-- Settles O35: the range check of an access, and of HASH's launch, comes first; a command that reads nothing has no
footprint past the top. -/
theorem footprintPastTheTopFaults : Obligations.FootprintPastTheTopFaults := by
  intro i s hwf htop
  cases i with
  | nop | zero | comp | aesr | aesrl | lred | fin | extr => exact absurd s.ptr.isLt.le (not_le.mpr htop)
  | load | linit | lstep => exact conclude_accessThen_past_top htop
  | loadp rd n =>
    have hn : n ≠ 0#4 := by simpa [Instr.wellFormed] using hwf
    exact (if_neg hn).trans (conclude_accessThen_past_top htop)
  | hash => exact exec_hash_past_top htop

/-! ### Refused bytes (R304) -/

/-- An answered access with a refused byte ends in ACCESS_FAULT at the access's fault address. -/
theorem conclude_accessThen_refused {s u : State} {a n : Nat} {fa : DWord} (htop : a + n ≤ Config.addressSpace)
    (hanswer : Answering s a n) (hread : ¬ Readable s a n) :
    conclude (accessThen s a n fa u) = .next (raiseFault s .accessFault fa) := by
  rw [accessThen, if_neg (not_lt.mpr htop), portAnswer_of_not_readable hanswer hread]
  rfl

/-- Settles O36: the fault address of the two loads is PTR. -/
theorem refusedLoadFaults : Obligations.RefusedLoadFaults := by
  rintro i rd n s (rfl | ⟨rfl, hn⟩) htop hanswer hread
  · exact conclude_accessThen_refused htop hanswer hread
  · exact (if_neg hn).trans (conclude_accessThen_refused htop hanswer hread)

theorem touches_refusing_iff (s : State) (a n : Nat) : touches s .refusing a n = true ↔ ¬ Readable s a n := by
  simp [touches_iff s .refusing a n, memAdmit]

/-- Of eight blocks that hold a refused byte, one holds the byte. -/
theorem exists_refused_block {s : State} {a : Nat} (h : ¬ Readable s a 128) :
    ∃ b < 8, ¬ Readable s (a + 16 * b) 16 := by
  by_contra! hblocks
  refine h fun i hi => ?_
  have hbyte := hblocks (i / 16) (by omega) (i % 16) (by omega)
  rwa [Nat.add_assoc, Nat.div_add_mod] at hbyte

/-- The fault address of the lanes is the start of the lowest block that holds a refused byte (R220, R304). -/
theorem laneFaultAddr_lowest {s : State} {a : Nat} (h : ¬ Readable s a 128) :
    ∃ b < 8, ¬ Readable s (a + 16 * b) 16 ∧ (∀ b' < b, Readable s (a + 16 * b') 16) ∧
      laneFaultAddr s a = BitVec.ofNat 64 (a + 16 * b) := by
  have hsome : ((List.range 8).find? fun i => touches s .refusing (a + 16 * i) 16).isSome := by
    obtain ⟨b, hb, hrefused⟩ := exists_refused_block h
    exact List.find?_isSome.mpr ⟨b, List.mem_range.mpr hb, (touches_refusing_iff ..).mpr hrefused⟩
  obtain ⟨b, hfind⟩ := Option.isSome_iff_exists.mp hsome
  obtain ⟨hrefused, hb, hlower⟩ := List.find?_range_eq_some.mp hfind
  refine ⟨b, List.mem_range.mp hb, (touches_refusing_iff ..).mp hrefused, fun b' hb' => ?_,
    by rw [laneFaultAddr, hfind]⟩
  by_contra hread
  simpa [(touches_refusing_iff ..).mpr hread] using hlower b' hb'

/-- Settles O37: LINIT and LSTEP are one access of their eight blocks. -/
theorem refusedLaneBlockFaults : Obligations.RefusedLaneBlockFaults := by
  intro i s hi htop hanswer hread
  obtain ⟨b, hb, hrefused, hlower, haddr⟩ := laneFaultAddr_lowest hread
  rw [BitVec.ofNat_add, BitVec.ofNat_toNat, BitVec.setWidth_eq] at haddr
  refine ⟨b, hb, hrefused, hlower, ?_⟩
  rw [← haddr]
  rcases hi with rfl | rfl
  · exact conclude_accessThen_refused htop hanswer hread
  · exact conclude_accessThen_refused htop hanswer hread

end Sys2Proof.Proofs
end

section
/-! SUPPORT. The entry of a fault and of a completion (R310, R311), why faults do not nest (R314), and what a host write
in the cycle of an engine step can do to it (R307). -/

namespace Sys2Proof.Proofs

open Sys2Proof.Machine Sys2Proof.Safety

/-! ### Entry (R310, R311) -/

/-- Settles O38: both entries write the fields they name and the hidden state. -/
theorem faultAndCompletionEntry : Obligations.FaultAndCompletionEntry := by
  refine ⟨fun s c a => ⟨rfl, rfl, rfl, rfl, rfl, fun hie => ?_, rfl⟩, fun s => ⟨rfl, rfl, rfl, fun hie => ?_, rfl⟩⟩
  · simp [irqLine, hie]
  · simp [irqLine, hie]

/-! ### No second fault (R314) -/

/-- From `s` the block comes to an idle state that still records the fault of `s`, or to the reset of `s`. -/
def KeepsFaultRecord (s t : State) : Prop :=
  t.seq = .idle ∧ ((t.cause = s.cause ∧ t.faultAddr = s.faultAddr) ∨ t = resetBlock s)

/-- While FAULT is set no command is accepted, and no other write touches CAUSE or FAULT_ADDR (R50, R51, R55). -/
theorem hostWrote_keepsFaultRecord {s t : State} (hidle : s.seq = .idle) (hfault : s.fault = true)
    (hw : HostWrote s t) : KeepsFaultRecord s t := by
  cases hw with
  | ignored | rejected | cleared | control | pointer | length | register => exact ⟨hidle, .inl ⟨rfl, rfl⟩⟩
  | reset => exact ⟨rfl, .inr rfl⟩
  | accepted c _ noFault => rw [hfault] at noFault; cases noFault

theorem access_keepsFaultRecord {s t : State} {a : HostAccess} (hidle : s.seq = .idle) (hfault : s.fault = true)
    (h : accessWith hostRead s a = .next t) : KeepsFaultRecord s t := by
  rcases accessWith_next h with ⟨_, _, _, _, rfl⟩ | ⟨_, _, _, _, _, rfl⟩
  · exact ⟨hidle, .inl ⟨rfl, rfl⟩⟩
  · exact hostWrote_keepsFaultRecord hidle hfault (hostWrite_wrote ..)

/-- An event on an idle block whose FAULT is set keeps CAUSE and FAULT_ADDR or resets the block. -/
theorem runEvent_keepsFaultRecord {s t : State} {e : Event} (hidle : s.seq = .idle) (hfault : s.fault = true)
    (h : runEvent e s = .next t) :
    (t.cause = s.cause ∧ t.faultAddr = s.faultAddr) ∨ ∃ s', s'.agenda = s.agenda ∧ t = resetBlock s' := by
  cases e with
  | host a =>
    obtain ⟨_, hkept | hreset⟩ := access_keepsFaultRecord hidle hfault h
    · exact .inl hkept
    · exact .inr ⟨s, rfl, hreset⟩
  | tick =>
    cases (engineTick_idle hidle).symm.trans h
    exact .inl ⟨rfl, rfl⟩
  | sameCycle a =>
    simp only [runEvent, eventWith] at h
    split at h
    · rename_i u hu
      obtain ⟨hstays, hrecord⟩ := access_keepsFaultRecord (s := { s with agenda := .tick :: s.agenda }) hidle hfault hu
      cases (engineTick_idle (s := { u with agenda := s.agenda }) hstays).symm.trans h
      rcases hrecord with hkept | rfl
      · exact .inl hkept
      · exact .inr ⟨s, rfl, rfl⟩
    · cases h
    · cases h
  | hardReset => cases h; exact .inr ⟨s, rfl, rfl⟩
  | memWrite a x => cases h; exact .inl ⟨rfl, rfl⟩

/-- No command runs while FAULT is set (R314). -/
theorem seq_idle_of_fault {s : State} (h : Inv s) (hfault : s.fault = true) : s.seq = .idle := by
  cases hseq : s.seq with
  | idle => rfl
  | exec c j =>
    obtain ⟨_, hclear, _⟩ := h.running c j hseq
    cases hfault.symm.trans hclear

/-- Settles O39: FAULT means that the block is idle, so no command is left to record a second fault. -/
theorem faultsDoNotNest : Obligations.FaultsDoNotNest := by
  intro s t hinv hfault h
  have hidle := seq_idle_of_fault hinv hfault
  unfold step at h
  split at h
  · cases (engineRun_idle hidle).symm.trans h
    exact .inl ⟨rfl, rfl⟩
  · rename_i e rest hagenda
    rw [hagenda]
    exact runEvent_keepsFaultRecord (s := { s with agenda := rest }) hidle hfault h

/-! ### Events in the same cycle (R307) -/

/-- A write in the engine's cycle is judged against the state before the engine's step (R307, log entry 15). -/
theorem step_sameCycle_write {o width : Nat} (h : Supported o width) (s : State) (w : DWord) :
    step { s with agenda := [.sameCycle (.write (s.gxhBase + BitVec.ofNat 64 o) width w)] } =
      engineTick { hostWrite { s with agenda := [.tick] } o width w with agenda := [] } := by
  have hoff : blockOffset { s with agenda := [.tick] } (s.gxhBase + BitVec.ofNat 64 o) = o := h.offset s
  simp only [step, runEvent, eventWith, accessWith, hoff, h.accessRefusal]

/-- After an internal step the command runs on, or it has ended with DONE or FAULT. -/
theorem commandInstant_engineTick {s t : State} (hb : busy s = true) (h : engineTick s = .next t) :
    CommandInstant t := by
  cases engineTick_ticked h with
  | idle => exact .inl hb
  | ended _ he => exact commandInstant_of_ended hb he
  | launched => exact .inl hb
  | @line ct j u hline _ wrote =>
    obtain ⟨_, c, hseq⟩ := hline
    rw [wrote]
    exact .inl (busy_of_seq (c := c) (j := j + 1) (by simp only [advance_seq, withEffect, hseq]))

/-- The engine writes neither CMDERR nor LASTCMD (R34). -/
theorem cmdErr_lastCmd_engineTick {s t : State} (h : engineTick s = .next t) :
    t.cmdErr = s.cmdErr ∧ t.lastCmd = s.lastCmd := by
  change (engineFrame t).cmdErr = (engineFrame s).cmdErr ∧ (engineFrame t).lastCmd = (engineFrame s).lastCmd
  rw [engineFrame_engineTick h]
  exact ⟨rfl, rfl⟩

/-- Settles O57: the write comes first, and the engine's step then works on what it left. -/
theorem sameCycleEvents : Obligations.SameCycleEvents := by
  intro s w hb
  have hb' : busy { s with agenda := [.tick] } = true := hb
  have supported {o : Nat} (ho : o % 8 = 0) (hlt : o < 0x200) : Supported o 8 := .of_lt (.inr rfl) ho hlt
  refine ⟨fun hsrst => ?_, fun t h hidle => ?_, fun t h => ?_⟩
  · rw [step_sameCycle_write (supported rfl (by decide)), hostWrite_ctrl (by rfl), if_pos (by simp [reachesLow, hsrst])]
    exact engineTick_idle rfl
  · rw [step_sameCycle_write (supported rfl (by decide)), hostWrite_status (by rfl), if_pos (by rfl)] at h
    have hrunning : busy (clearStatus { s with agenda := [] } w) = true := hb
    rcases commandInstant_engineTick hrunning h with hrun | hended
    · rw [hidle] at hrun
      cases hrun
    · exact hended
  · rw [step_sameCycle_write (supported rfl (by decide)), hostWrite_cmd (by rfl), if_pos (by rfl),
      if_pos (by rw [hb']; rfl)] at h
    exact cmdErr_lastCmd_engineTick h

end Sys2Proof.Proofs
end

section
/-! SUPPORT. The state reset leaves (R350, R351), and a command whose read is never answered (R367): it waits where the
read stands, for HASH at the first line that reads such a byte. -/

namespace Sys2Proof.Proofs

open Sys2Proof.Machine Sys2Proof.Safety

/-! ### The reset state -/

/-- The reset state is what a reset of it leaves. -/
theorem resetBlock_reset : resetBlock State.reset = State.reset := rfl

/-- Settles O50: CTRL and STATUS read 0 after any reset of the block, and the other values are those `State.reset`
writes. -/
theorem resetValues : Obligations.ResetValues :=
  ⟨fun r => by cases r <;> rfl, resetBlock_reset ▸ ctrlWord_resetBlock State.reset,
    resetBlock_reset ▸ statusWord_resetBlock State.reset, rfl, rfl, rfl, rfl, rfl, rfl, rfl, rfl, rfl, rfl⟩

/-- Settles O60: the reset state is idle and clean, its memory lists nothing, and no fault is recorded. -/
theorem resetHasTheInvariant : Obligations.ResetHasTheInvariant :=
  inv_of_idle reset_memory_wf rfl ⟨rfl, rfl, rfl, rfl⟩ nofun

/-! ### An access that is never answered -/

/-- Without side effects, one byte that is never answered keeps the whole access waiting, a refused byte or not (log
entry 10). -/
theorem portAnswer_of_silent {s : State} {a n : Nat} (hside : ∀ k < n, touches s .sideEffect (a + k) 1 = false)
    (hsilent : ∃ k < n, touches s .silent (a + k) 1 = true) : portAnswer s a n = .silent := by
  rw [portAnswer, (touches_false_iff ..).mpr hside, (touches_iff ..).mpr hsilent]
  rfl

theorem accessThen_of_silent {s u : State} {a n : Nat} {fa : DWord} (htop : a + n ≤ Config.addressSpace)
    (hside : ∀ k < n, touches s .sideEffect (a + k) 1 = false)
    (hsilent : ∃ k < n, touches s .silent (a + k) 1 = true) : accessThen s a n fa u = .stuck s := by
  rw [accessThen, if_neg (not_lt.mpr htop), portAnswer_of_silent hside hsilent]

/-- A command that is one access stays as it is while a byte of the access is not answered. -/
theorem conclude_accessThen_silent {s u : State} {a n : Nat} {fa : DWord} (htop : a + n ≤ Config.addressSpace)
    (hside : ∀ k < n, touches s .sideEffect (a + k) 1 = false)
    (hsilent : ∃ k < n, touches s .silent (a + k) 1 = true) : conclude (accessThen s a n fa u) = .next s := by
  rw [accessThen_of_silent htop hside hsilent, conclude]

/-! ### Lines that finish or wait -/

/-- None of the `n` bytes from PTR on lies in a region of kind `k`. -/
def FreeFrom (k : RegionKind) (s : State) (n : Nat) : Prop := ∀ i < n, touches s k (s.ptr.toNat + i) 1 = false

/-- The `n` bytes from PTR on lie in the address space, admitted and without side effects: all that a read of them can
still do is wait. -/
def AdmittedFor (s : State) (n : Nat) : Prop :=
  s.ptr.toNat + n ≤ Config.addressSpace ∧ FreeFrom .refusing s n ∧ FreeFrom .sideEffect s n

/-- The reach of a line and the lines after it is free from a kind exactly where the line's bytes and, after it, theirs
are. -/
theorem freeFrom_cons_iff {k : RegionKind} {op : MicroOp} {s t : State} {m n : Nat} (ht : microEffect op s = .done t)
    (htop : s.ptr.toNat + (lineAdvance op + n) ≤ Config.addressSpace) (hadv : lineAdvance op ≤ m) :
    FreeFrom k s (max m (lineAdvance op + n)) ↔ FreeFrom k s m ∧ FreeFrom k (advance (snapshot s) t) n := by
  obtain ⟨_, haddr⟩ := ptr_after_line ht htop
  have hrest (i : Nat) (hi : i < n) : touches (advance (snapshot s) t) k ((advance (snapshot s) t).ptr.toNat + i) 1 =
      touches s k (s.ptr.toNat + (lineAdvance op + i)) 1 := by
    rw [touches_after_line ht, advance_ptr, haddr i hi]
  constructor
  · intro h
    exact ⟨fun i hi => h i (by omega), fun i hi => (hrest i hi).trans (h _ (by omega))⟩
  · rintro ⟨hline, hlines⟩ i hi
    rcases Nat.lt_or_ge i m with him | hmi
    · exact hline i him
    · obtain ⟨j, rfl⟩ := Nat.exists_eq_add_of_le (hadv.trans hmi)
      exact (hrest j (by omega)).symm.trans (hlines j (by omega))

/-- A line whose bytes are admitted finishes, every byte answered, or waits. -/
theorem microEffect_of_admitted {op : MicroOp} {s : State} (h : AdmittedFor s (lineReads s.tailMode op)) :
    (FreeFrom .silent s (lineReads s.tailMode op) ∧ ∃ t, microEffect op s = .done t) ∨ microEffect op s = .stuck s := by
  obtain ⟨htop, hrefusing, hside⟩ := h
  obtain ⟨fa, t, haccess⟩ := microEffect_eq_accessThen op s
  rw [haccess]
  by_cases hsilent : FreeFrom .silent s (lineReads s.tailMode op)
  · have hanswered : portAnswer s s.ptr.toNat (lineReads s.tailMode op) = .answered :=
      (portAnswer_answered_iff ..).mpr ⟨(touches_false_iff ..).mpr hside, (touches_false_iff ..).mpr hsilent,
        (touches_false_iff ..).mpr hrefusing⟩
    rw [accessThen, if_neg (not_lt.mpr htop), hanswered]
    exact .inl ⟨hsilent, t, rfl⟩
  · simp only [FreeFrom, not_forall, Bool.not_eq_false, exists_prop] at hsilent
    exact .inr (accessThen_of_silent htop hside hsilent)

/-- Lines whose reach is admitted finish, every byte of the reach answered, or wait. -/
theorem runMicro_of_admitted {p : List MicroOp} {s : State}
    (hadv : ∀ op ∈ p, lineAdvance op ≤ lineReads s.tailMode op) (h : AdmittedFor s (linesReach s.tailMode p)) :
    FreeFrom .silent s (linesReach s.tailMode p) ∨ ∃ u, runMicro p s = .stuck u := by
  induction p generalizing s with
  | nil => exact .inl fun i hi => absurd hi (Nat.not_lt_zero i)
  | cons op p ih =>
    rw [linesReach] at h ⊢
    obtain ⟨htop, hrefusing, hside⟩ := h
    have hop : lineAdvance op ≤ lineReads s.tailMode op := hadv op List.mem_cons_self
    have hline : AdmittedFor s (lineReads s.tailMode op) :=
      ⟨by omega, fun i hi => hrefusing i (by omega), fun i hi => hside i (by omega)⟩
    rcases microEffect_of_admitted hline with ⟨hsilent, t, ht⟩ | hwait
    · have htop' : s.ptr.toNat + (lineAdvance op + linesReach s.tailMode p) ≤ Config.addressSpace := by omega
      have hmode : (advance (snapshot s) t).tailMode = s.tailMode :=
        (advance_tailMode ..).trans (microEffect_done_tailMode ht)
      have hafter := ih (s := advance (snapshot s) t)
      rw [hmode] at hafter
      rw [freeFrom_cons_iff ht htop' hop] at hrefusing hside ⊢
      rw [runMicro_cons_done ht]
      exact (hafter (fun op' hop' => hadv op' (List.mem_cons_of_mem op hop'))
        ⟨(ptr_after_line ht htop').1, hrefusing.2, hside.2⟩).imp_left fun hlines => ⟨hsilent, hlines⟩
    · exact .inr ⟨s, by simp only [runMicro, microStep, hwait]⟩

/-! ### HASH at the line that waits -/

/-- Lines that finish move the sequencer past them and write nothing else but the history and what an effect writes. -/
theorem runMicro_done_writes {p : List MicroOp} {s u : State} {c : CmdWord} {j : Nat} (h : runMicro p s = .done u)
    (hseq : s.seq = .exec c j) :
    u = { withEffect s u with seq := .exec c (j + p.length), history := u.history } := by
  induction p generalizing s j with
  | nil =>
    cases h
    simp only [List.length_nil, Nat.add_zero, ← hseq]
    rfl
  | cons op p ih =>
    rcases microStep_cases op s with ⟨t, ht, hm⟩ | ⟨_, _, _, hm⟩ | ⟨_, hm⟩ | ⟨_, hm⟩ <;>
      simp only [runMicro, hm] at h
    · rw [microEffect_done ht] at h
      have hnext : (advance (snapshot s) (withEffect s t)).seq = .exec c (j + 1) := by
        simp only [advance_seq, withEffect, hseq]
      have hrest := ih h hnext
      rw [Nat.add_right_comm] at hrest
      exact hrest
    · cases h
    · cases h
    · cases h

/-- Inside the address space and without side effects HASH passes its launch (R271, R87). -/
theorem exec_hash_of_quiet {s : State} (htop : s.ptr.toNat + footprint .hash s ≤ Config.addressSpace)
    (hside : FreeFrom .sideEffect s (footprint .hash s)) :
    exec .hash s = conclude (runMicro (hashProgram (hashCounters s.len.toNat)) (launched s)) := by
  have hlaunch : hashLaunch s = .done (launched s) := by
    rw [hashLaunch, hashReads_eq_footprint, if_neg (not_lt.mpr htop), (touches_false_iff ..).mpr hside]
    rfl
  change conclude (hashEffect s) = _
  rw [hashEffect, hlaunch]

/-- Lines that wait do so at one of them, which changes nothing; those before it have finished. -/
theorem runMicro_stuck_split {p : List MicroOp} {s u : State} (h : runMicro p s = .stuck u) :
    ∃ before op after, p = before ++ op :: after ∧ runMicro before s = .done u ∧
      runMicro (op :: after) u = .stuck u := by
  rcases runMicro_split h with ⟨t, ht⟩ | ⟨before, op, after, t, hp, hrun, hwait⟩
  · cases ht
  · rcases microStep_cases op t with ⟨_, _, hm⟩ | ⟨_, _, _, hm⟩ | ⟨_, hm⟩ | ⟨_, hm⟩ <;>
      cases hm.symm.trans hwait
    exact ⟨before, op, after, hp, hrun, by simp only [runMicro, hm]⟩

/-- HASH started at line 0 waits at a line of its microprogram when that waits (R367, R283). -/
theorem hash_waits {s u : State} {c : CmdWord} (hagenda : s.agenda = []) (hseq : s.seq = .exec c 0)
    (hwait : runMicro (hashProgram (hashCounters s.len.toNat)) (launched s) = .stuck u) :
    ∃ j, u.seq = .exec c j ∧ u.done = s.done ∧ u.fault = s.fault ∧ u.result = s.result ∧ step u = .next u := by
  obtain ⟨before, op, after, hp, hrun, hrest⟩ := runMicro_stuck_split hwait
  have hwrites := runMicro_done_writes (s := launched s) hrun hseq
  rw [Nat.zero_add] at hwrites
  have hposition : u.seq = .exec c before.length := congrArg State.seq hwrites
  have hline : AtLine u (hashCounters s.len.toNat) before.length := ⟨congrArg State.counters hwrites, c, hposition⟩
  refine ⟨before.length, hposition, by rw [hwrites]; rfl, by rw [hwrites]; rfl, ?_, ?_⟩
  · rw [← launched_result s]
    exact runMicro_done_result hrun (ne_finAcc_of_before (Nat.mod_lt _ (by decide)) hp)
  · have hstep : step u = engineRun u := by
      rw [step, (congrArg State.agenda hwrites).trans hagenda]
    rw [hstep, hline.engineRun, hp, List.drop_left, hrest, conclude]

/-- Settles O40: the loads and the lane commands are one access, and HASH waits at the first line that is not
answered. -/
theorem unansweredReadKeepsTheBlockBusy : Obligations.UnansweredReadKeepsTheBlockBusy := by
  constructor
  · rintro i rd n s (rfl | ⟨rfl, hn⟩ | rfl | rfl) htop hside hsilent
    · exact conclude_accessThen_silent htop hside hsilent
    · exact (if_neg hn).trans (conclude_accessThen_silent htop hside hsilent)
    · exact conclude_accessThen_silent htop hside hsilent
    · exact conclude_accessThen_silent htop hside hsilent
  · rintro s c hagenda hseq htop hread hside ⟨k, hk, hsilent⟩
    have hadmitted : AdmittedFor s (footprint .hash s) :=
      ⟨htop, fun i hi => by simpa [memAdmit] using hread i hi, hside⟩
    rw [← linesReach_hashProgram] at hadmitted
    rcases runMicro_of_admitted (s := launched s) (fun _ hop => lineAdvance_le_lineReads hop _) hadmitted with
      hfree | ⟨u, hwait⟩
    · rw [← linesReach_hashProgram] at hk
      cases hsilent.symm.trans (hfree k hk)
    · obtain ⟨j, hposition, hdone, hfault, hresult, hstep⟩ := hash_waits hagenda hseq hwait
      exact ⟨u, j, by rw [exec_hash_of_quiet htop hside, hwait, conclude], hposition, hdone, hfault, hresult, hstep⟩

end Sys2Proof.Proofs
end
